-- ==== Sys2Proof/Word.lean ====
section
/-! DEFINITION. The word types (00_scope.md rules R5, R11; 20_memory.md rules R51, R52). -/

namespace Sys2Proof

/-- One element of OUT: 32 bits (R52, R80). -/
abbrev Word := BitVec 32

/-- One character of MSG: `CHAR_W` = 8 bits (R51). -/
abbrev Byte := BitVec 8

end Sys2Proof
end

