-- ==== Sys2Proof/Machine/Bch.lean ====
section
/-! DEFINITION. The CRC/BCH parity generator and the codeword encoder as functions (40_crc_parity.md,
41_codeword_encoder.md), the fixed words, and the fields of a codeword (30_encoding.md rules R81 to R94). -/

namespace Sys2Proof.Machine

/-- `GEN` (R5, R110). -/
def generator : BitVec 11 := 0b11101101001#11

/-- `SYNC` (R86, R136); the pseudo-operation SYNCW (R103). -/
def syncWord : Word := 0x7CD215D8#32

/-- `IDLE` (R86, R136); the pseudo-operation IDLEW (R103). -/
def idleWord : Word := 0x7A89C197#32

/-- `PRE_WORD` (R86, R136); the pseudo-operation PREW (R103). -/
def preambleWord : Word := 0xAAAAAAAA#32

/-- The last `n` of the 21 iterations of R110: iteration `i = n + 9`, down to `i = 10`. -/
def polymodLoop : Nat → BitVec 31 → BitVec 31
  | 0, r => r
  | n + 1, r => polymodLoop n (if r.getLsbD (n + 10) then r ^^^ (generator.setWidth 31 <<< n) else r)

/-- `polymod(v)` (R110): the remainder of `v` divided by the generator over GF(2). -/
def polymod (v : BitVec 31) : BitVec 10 := (polymodLoop 21 v).setWidth 10

/-- `crc(data)` (R111). -/
def crc (data : BitVec 21) : BitVec 10 := polymod (data.setWidth 31 <<< 10)

/-- The exclusive-or of the low `n` bits of `x`. -/
def parityLoop (x : Word) : Nat → Bool
  | 0 => false
  | n + 1 => (x.getLsbD n).xor (parityLoop x n)

/-- `parity(x)` (R112). -/
def parity (x : Word) : Bool := parityLoop x 32

/-- The 31-bit value `(data << 10) | crc(data)` (R130). -/
def fullValue (data : BitVec 21) : BitVec 31 := (data.setWidth 31 <<< 10) ||| (crc data).setWidth 31

/-- `encodeCodeword(data)` (R130). -/
def encodeCodeword (data : BitVec 21) : Word :=
  ((fullValue data).setWidth 32 <<< 1) ||| (BitVec.ofBool (parity ((fullValue data).setWidth 32))).setWidth 32

/-- `addressOffset(address) = (address & 0x7) * 2`, a 4-bit value (R92, R133). -/
def addressOffset (address : BitVec 21) : BitVec 4 := ((address &&& 0x7#21) * 2#21).setWidth 4

/-- The address codeword's data `((address >> 3) << 2) | fb` (R90). -/
def addressData (address : BitVec 21) (fb : BitVec 2) : BitVec 21 :=
  ((address >>> 3) <<< 2) ||| fb.setWidth 21

/-- `addressWord(address, fb)` (R134). -/
def addressWord (address : BitVec 21) (fb : BitVec 2) : Word := encodeCodeword (addressData address fb)

/-- The message codeword's data `0x100000 | group` (R91). -/
def messageData (group : BitVec 20) : BitVec 21 := 0x100000#21 ||| group.setWidth 21

/-- `messageWord(group)` (R135). -/
def messageWord (group : BitVec 20) : Word := encodeCodeword (messageData group)

/-- `SYND w` (R103): `polymod(w[31:1])`; zero for every codeword (R113). -/
def syndrome (w : Word) : BitVec 10 := polymod (w.extractLsb' 1 31)

/-- `w[31:11]` (R94). -/
def dataOfWord (w : Word) : BitVec 21 := w.extractLsb' 11 21

/-- `w[31]`, the role flag (R89, R94). -/
def flagOfWord (w : Word) : Bool := w.getLsbD 31

/-- `w[30:13]` = `ADDRESS[20:3]` (R82, R94). -/
def addrHiOfWord (w : Word) : BitVec 18 := w.extractLsb' 13 18

/-- `w[12:11]` = `FB` (R82, R94). -/
def fbOfWord (w : Word) : BitVec 2 := w.extractLsb' 11 2

/-- `w[30:11]`, the group of a message codeword (R83, R94). -/
def groupOfWord (w : Word) : BitVec 20 := w.extractLsb' 11 20

/-- The address whose high bits are `addrHi` and whose low three bits are 0: every address of the eight that
share the codeword gives the same word (R134). -/
def addressOfHi (addrHi : BitVec 18) : BitVec 21 := addrHi ++ 0#3

/-- The address read back from its codeword and its data slot: `ADDRESS[2:0] = slot / 2` (R94). -/
def addressOfWord (w : Word) (slot : BitVec 4) : BitVec 21 := addrHiOfWord w ++ slot.extractLsb' 1 3

end Sys2Proof.Machine
end

