-- ==== Sys2Proof/Config.lean ====
section
/-! DEFINITION. What an implementation fixes (00_scope.md rule R6), and the free values. -/

namespace Sys2Proof.Config

/-- A free value: what a register holds where the spec gives it no value (R38, 93_implementation_defined.md
U2 and U9), and the byte order of `State.reset`'s instance (U8). `draw` numbers the draw, `reg` the register. It has
no body, so nothing can be proved of a value. Log 5, log 6, log 7, log 17. -/
opaque freeValue (draw reg : Nat) : Nat

/-- `OUT_BYTE_ORDER` (R6, R55): an order of the four bytes of a word, each of the 24 orders once. The host reads first
the byte `first` of the four, counted from the most significant, then the byte `second` of the three left, then the byte
`third` of the two left, then the last. -/
structure ByteOrder where
  first : Fin 4
  second : Fin 3
  third : Fin 2
  deriving DecidableEq, Repr

/-- The open parameters of one instance of the block (R6). They are plain data, carried unchanged by
every state, so that a statement about every state holds for every instance. -/
structure Params where
  /-- `MAX_MSG_LEN` (92_eei_decisions.md D15); `none`: the instance sets no bound. -/
  maxMsgLen : Option Nat
  /-- `REP_W`, any positive width (R6, D14); `none`: the repeat operands have no width limit. -/
  repW : Option { w : Nat // 0 < w }
  /-- The eight open entries of `NUM_DIGIT_TABLE` (R155, D5). Entries 0 and 9 are forced to 0 and 9. -/
  digit1 : BitVec 4
  digit2 : BitVec 4
  digit3 : BitVec 4
  digit4 : BitVec 4
  digit5 : BitVec 4
  digit6 : BitVec 4
  digit7 : BitVec 4
  digit8 : BitVec 4
  /-- `OUT_BYTE_ORDER` (D8, U8), which only a host that reads OUT as bytes sees (R55). -/
  outByteOrder : ByteOrder
  deriving DecidableEq, Repr

/-- The instance that `State.reset` is of: no bound on the message (D15: "A model may take it as unbounded"),
no width limit on the repeat operands, the spec's default table, the identity (D5), and a byte order that is free (D8).
DESIGN CHOICE, log 10, log 11, log 12, log 17. -/
def Params.default : Params :=
  { maxMsgLen := none, repW := none,
    digit1 := 1, digit2 := 2, digit3 := 3, digit4 := 4,
    digit5 := 5, digit6 := 6, digit7 := 7, digit8 := 8
    outByteOrder :=
      { first := Fin.ofNat 4 (freeValue 0 23)
        second := Fin.ofNat 3 (freeValue 0 24)
        third := Fin.ofNat 2 (freeValue 0 25) } }

end Sys2Proof.Config
end

