-- ==== Sys2Proof/Syntax.lean ====
section
/-! DEFINITION. The request record (10_state.md rule R21), and one constructor of `Instr` for every row of
spec/opcode_table.json: the eleven operations, the five reserved selectors and the six word classes of OUT. -/

namespace Sys2Proof

/-- The payload encoding mode (R150). -/
inductive Mode where
  | text
  | numeric
  deriving DecidableEq, Repr

/-- A request: a record of named operands, each as wide as its port (R21). The three operands of open width
(`REPIDX`, `REPCNT`, `N`) are natural numbers (log 11). MSG is a space of its own (R51). -/
structure Request where
  /-- `OP`, the operation selector (R95). -/
  op : BitVec 4
  /-- `DATA`, pre-CRC data. -/
  data : BitVec 21
  /-- `X`, the value whose parity is taken. -/
  x : BitVec 32
  /-- `ADDRESS`, the pager address. -/
  address : BitVec 21
  /-- `FB`, the function bits. -/
  fb : BitVec 2
  /-- `GROUP`, 20 payload bits. -/
  group : BitVec 20
  /-- `CH`, one character. -/
  ch : Byte
  /-- `MODE`: 0 Text, 1 Numeric. -/
  mode : BitVec 1
  /-- `START`, the initial value of the word-position counter. -/
  start : BitVec 4
  /-- `REPIDX`, the repeat index. -/
  repidx : Nat
  /-- `REPCNT`, the number of repeats. -/
  repcnt : Nat
  /-- `N`, the message length in characters. -/
  n : Nat
  deriving DecidableEq, Repr

/-- The record whose every operand is 0. -/
def Request.zero : Request :=
  { op := 0, data := 0, x := 0, address := 0, fb := 0, group := 0, ch := 0, mode := 0, start := 0,
    repidx := 0, repcnt := 0, n := 0 }

/-- One constructor per row of the opcode table. A request carries the operands it reads (R95). A word class
carries the fields of a word of that class which its checks (crc, parity) do not repeat (R81 to R83). -/
inductive Instr where
  | crc10 (data : BitVec 21)
  | par32 (x : BitVec 32)
  | encw (data : BitVec 21)
  | aoff (address : BitVec 21)
  | addrw (address : BitVec 21) (fb : BitVec 2)
  | msgw (group : BitVec 20)
  | numd (ch : Byte)
  | pack (mode : Mode) (start : BitVec 4) (n : Nat)
  | tx1 (repidx : Nat) (address : BitVec 21) (fb : BitVec 2) (mode : Mode) (n : Nat)
  | txr (repcnt : Nat) (address : BitVec 21) (fb : BitVec 2) (mode : Mode) (n : Nat)
  | len (repidx : Nat) (address : BitVec 21) (mode : Mode) (n : Nat)
  | reserved0
  | reservedC
  | reservedD
  | reservedE
  | reservedF
  | wordPreamble
  | wordSync
  | wordIdle
  | wordAddress (addrHi : BitVec 18) (fb : BitVec 2)
  | wordMessage (group : BitVec 20)
  | wordCodeword (data : BitVec 21)
  deriving DecidableEq, Repr

/-- What a decoder reads: a request record, or a word of OUT (30_encoding.md gives both meanings of "encoding"). -/
inductive Code where
  | request (r : Request)
  | word (w : Word)
  deriving DecidableEq, Repr

/-- `PACKT start, msg` (R103). -/
abbrev Instr.packT (start : BitVec 4) (n : Nat) : Instr := .pack .text start n

/-- `PACKN start, msg` (R103). -/
abbrev Instr.packN (start : BitVec 4) (n : Nat) : Instr := .pack .numeric start n

/-- `TEXTLEN repidx, address, n` (R103). -/
abbrev Instr.textLen (repidx : Nat) (address : BitVec 21) (n : Nat) : Instr := .len repidx address .text n

/-- `NUMLEN repidx, address, n` (R103). -/
abbrev Instr.numLen (repidx : Nat) (address : BitVec 21) (n : Nat) : Instr := .len repidx address .numeric n

end Sys2Proof
end

