-- ==== Sys2Proof/Machine/State.lean ====
section
/-! DEFINITION. The architectural state (10_state.md), the named ways a step can stop, and the state after reset. -/

namespace Sys2Proof.Machine

/-- The phase register `PH` (R30). -/
inductive Phase where
  | ready
  | pre
  | sync0
  | idlePrefix
  | addr
  | payload
  | term
  | pad
  | done
  deriving DecidableEq, Repr

/-- The working registers (R22 to R29). Outside an operation the spec gives them no value (R37, R38): they then
hold free values (log 5). -/
structure Working where
  /-- `ACC`, the bit accumulator (R22). -/
  acc : BitVec 20
  /-- `NB`, the number of bits in `ACC` (R23). -/
  nb : BitVec 5
  /-- `WPOS`, the data slots of the batch already filled (R24). -/
  wpos : BitVec 4
  /-- `SP`, Sync pending (R25). -/
  sp : Bool
  /-- `CNT`, the words since step 2 modulo 17 (R26). -/
  cnt : BitVec 5
  /-- `K`, the loop counter (R27). -/
  k : BitVec 5
  /-- `CI`, the index of the next character (R28). -/
  ci : Nat
  /-- `BI`, the bits of that character already taken (R28). -/
  bi : BitVec 3
  /-- `REPI`, the repeat being composed (R29). -/
  repi : Nat
  /-- `REND`, the repeat at which composing stops (R29). -/
  rend : Nat
  deriving DecidableEq, Repr

/-- MSG: cells of a character index and a character, indices strictly rising, no cell equal to what an unlisted
index reads as (R51, log 8). -/
abbrev Memory := List Host.Cell

/-- The state of the block, with the two spaces it works on and what the host presents to it. -/
structure State where
  /-- `PH` (R30). -/
  ph : Phase
  /-- `DONE` (R31). -/
  done : Bool
  /-- `ERR` (R31, R240). -/
  err : BitVec 2
  /-- `RES`, never truncated (R31, R229). -/
  res : Nat
  /-- `OUTP`, the words appended by the current operation (R31). -/
  outp : Nat
  /-- The operands latched when the operation started (R21). -/
  req : Request
  /-- The working registers (R22 to R29). -/
  work : Working
  /-- The request the host presents, if any (R262). -/
  port : Option Request
  /-- MSG (R51). -/
  msg : Memory
  /-- OUT (R52). -/
  out : List Word
  /-- The instance's open parameters (R6): the model's own field, changed by no step. -/
  params : Config.Params
  /-- How many draws of free values there have been: the model's own field (log 16). -/
  free : Nat
  deriving DecidableEq, Repr

/-- Why a step stops in a named stuck state. -/
inductive Fault where
  /-- `PH` is READY or DONE and the host presents no request: no step is enabled (R214). Raised by `step`.
  Safe: the block waits there, and nothing of it changes. -/
  | noStepEnabled
  /-- A word class that the sequencer's next step does not emit (R207 to R213). Raised by the meanings of the
  word classes, never by `step`. Safe: the block emits no such word there. -/
  | wordNotDue
  deriving DecidableEq, Repr

/-- Why a request or a move of the host is given no meaning. -/
inductive Refusal where
  /-- An instruction with no meaning in this model yet; raised by no arm. Safe. -/
  | notModelled (mnemonic : String)
  /-- A request while an operation runs (R262, 93_implementation_defined.md U3): "a model gives a host that
  breaks it no step at all". Raised by `step`, by the meaning of every request, and by `hostPresent`.
  Safe: no claim can be made of such a host. -/
  | requestWhileRunning
  /-- An operand wider than its port, which cannot be presented (R21). Raised by `step` and `hostPresent`. Safe. -/
  | operandTooWide
  /-- MSG written while an operation runs (R70, U6). Raised by `hostWriteMsg`. Safe. -/
  | operandsHeld
  deriving DecidableEq, Repr

/-- What a step, a meaning or a move of the host answers. -/
abbrev Result := Host.Outcome State Fault Refusal

/-- Working registers without a value: free values of one draw (R38, log 5). -/
def Working.unwritten (draw : Nat) : Working :=
  { acc := BitVec.ofNat 20 (Config.freeValue draw 0)
    nb := BitVec.ofNat 5 (Config.freeValue draw 1)
    wpos := BitVec.ofNat 4 (Config.freeValue draw 2)
    sp := Config.freeValue draw 3 % 2 == 1
    cnt := BitVec.ofNat 5 (Config.freeValue draw 4)
    k := BitVec.ofNat 5 (Config.freeValue draw 5)
    ci := Config.freeValue draw 6
    bi := BitVec.ofNat 3 (Config.freeValue draw 7)
    repi := Config.freeValue draw 8
    rend := Config.freeValue draw 9 }

/-- Operands before the host has presented any (R37): free values of one draw (log 6). -/
def Request.unpresented (draw : Nat) : Request :=
  { op := BitVec.ofNat 4 (Config.freeValue draw 11)
    data := BitVec.ofNat 21 (Config.freeValue draw 12)
    x := BitVec.ofNat 32 (Config.freeValue draw 13)
    address := BitVec.ofNat 21 (Config.freeValue draw 14)
    fb := BitVec.ofNat 2 (Config.freeValue draw 15)
    group := BitVec.ofNat 20 (Config.freeValue draw 16)
    ch := BitVec.ofNat 8 (Config.freeValue draw 17)
    mode := BitVec.ofNat 1 (Config.freeValue draw 18)
    start := BitVec.ofNat 4 (Config.freeValue draw 19)
    repidx := Config.freeValue draw 20
    repcnt := Config.freeValue draw 21
    n := Config.freeValue draw 22 }

/-- An instance right after power-on: the values R37 gives, no request presented, nothing in MSG and OUT. -/
def State.powerOn (p : Config.Params) : State :=
  { ph := .ready, done := false, err := 0, res := 0, outp := 0,
    req := Request.unpresented 0, work := Working.unwritten 0,
    port := none, msg := [], out := [], params := p, free := 1 }

/-- The machine right after reset (R37, R260), of the instance with the default parameters. -/
def State.reset : State := State.powerOn Config.Params.default

end Sys2Proof.Machine
end

