-- ==== Sys2Proof/Machine/Flags.lean ====
section
/-! DEFINITION. The flags and status codes: `SP` with `WPOS` (43_sync_injector.md rule R181), the causes of `ERR`
(60_exceptions.md rules R239, R240), the length check, and the counter of step 7 (R219). -/

namespace Sys2Proof.Machine

/-- The causes of a refusal by the block (R239). -/
inductive Cause where
  | reservedOp
  | msgTooLong
  deriving DecidableEq, Repr

/-- The cause codes in `ERR` (R240). -/
def causeCode : Cause → BitVec 2
  | .reservedOp => 1
  | .msgTooLong => 2

/-- `N > MAX_MSG_LEN` (R239). -/
def tooLong (p : Config.Params) (n : Nat) : Bool :=
  match p.maxMsgLen with
  | none => false
  | some m => decide (m < n)

/-- `WPOS` after a message codeword: the wrap from 15 to 0 (R24, R181). -/
def nextSlot (wpos : BitVec 4) : BitVec 4 := if wpos = 15#4 then 0#4 else wpos + 1#4

/-- `SP` after a message codeword: set when `WPOS` wraps (R25, R181). -/
def syncAfter (wpos : BitVec 4) (sp : Bool) : Bool := if wpos = 15#4 then true else sp

/-- `CNT` after a counted word: `(CNT + 1) mod 17` (R219). -/
def nextCount (cnt : BitVec 5) : BitVec 5 := BitVec.ofNat 5 ((cnt.toNat + 1) % 17)

/-- The phases in which the block accepts a request (R262). -/
def Phase.idle : Phase → Bool
  | .ready => true
  | .done => true
  | .pre => false
  | .sync0 => false
  | .idlePrefix => false
  | .addr => false
  | .payload => false
  | .term => false
  | .pad => false

end Sys2Proof.Machine
end

