-- ==== Sys2Proof/WellFormed.lean ====
section
/-! DEFINITION. The checks on an instruction as syntax. -/

namespace Sys2Proof

/-- A repeat operand fits its port of `REP_W` bits (R21). -/
def fitsRepW (p : Config.Params) (v : Nat) : Bool :=
  match p.repW with
  | none => true
  | some w => decide (v < 2 ^ w.val)

/-- The request can be presented: no operand is wider than its port (R21, D4). Only the repeat operands can
fail; `N` above `MAX_MSG_LEN` is refused by the block itself (R239). -/
def Request.fits (p : Config.Params) (r : Request) : Bool := fitsRepW p r.repidx && fitsRepW p r.repcnt

/-- An instruction is well-formed in an instance when a request can be presented (R21), and a word class can
be read back from its word by value (R97): an address word with the value of SYNC or IDLE is told apart by its
position only (R99), and the generic format WORD.CODEWORD always has a class of higher priority. -/
def Instr.wellFormed (p : Config.Params) : Instr → Bool
  | .crc10 _ => true
  | .par32 _ => true
  | .encw _ => true
  | .aoff _ => true
  | .addrw _ _ => true
  | .msgw _ => true
  | .numd _ => true
  | .pack _ _ _ => true
  | .tx1 repidx _ _ _ _ => fitsRepW p repidx
  | .txr repcnt _ _ _ _ => fitsRepW p repcnt
  | .len repidx _ _ _ => fitsRepW p repidx
  | .reserved0 => true
  | .reservedC => true
  | .reservedD => true
  | .reservedE => true
  | .reservedF => true
  | .wordPreamble => true
  | .wordSync => true
  | .wordIdle => true
  | .wordAddress hi fb =>
    Machine.addressWord (Machine.addressOfHi hi) fb != Machine.syncWord &&
      Machine.addressWord (Machine.addressOfHi hi) fb != Machine.idleWord
  | .wordMessage _ => true
  | .wordCodeword _ => false

end Sys2Proof
end

