-- ==== Sys2Proof/Decode.lean ====
section
/-! DEFINITION. Decoding a request record and a word of OUT (30_encoding.md rules R94 to R98), and encoding. -/

namespace Sys2Proof

/-- `MODE`: 0 Text, 1 Numeric (R21). -/
def modeOfBit (b : BitVec 1) : Mode := if b = 0#1 then .text else .numeric

/-- The operand port's value for a mode (R21). -/
def modeBit : Mode → BitVec 1
  | .text => 0
  | .numeric => 1

/-- The request's operation by its selector, with the operands that operation reads (R95); the reserved
selectors (R98) have names of their own. Total: every record is some operation or some reserved selector. -/
def decodeRequest (r : Request) : Instr :=
  match r.op.toNat with
  | 0x0 => .reserved0
  | 0x1 => .crc10 r.data
  | 0x2 => .par32 r.x
  | 0x3 => .encw r.data
  | 0x4 => .aoff r.address
  | 0x5 => .addrw r.address r.fb
  | 0x6 => .msgw r.group
  | 0x7 => .numd r.ch
  | 0x8 => .pack (modeOfBit r.mode) r.start r.n
  | 0x9 => .tx1 r.repidx r.address r.fb (modeOfBit r.mode) r.n
  | 0xA => .txr r.repcnt r.address r.fb (modeOfBit r.mode) r.n
  | 0xB => .len r.repidx r.address (modeOfBit r.mode) r.n
  | 0xC => .reservedC
  | 0xD => .reservedD
  | 0xE => .reservedE
  | _ => .reservedF

/-- A word's class by value: the three fixed words first, then the role flag (R97, and the table's priorities).
The checks (crc, parity) are not looked at (DEDUCED, log 3). A class by position is `Machine.roleAt`. -/
def decodeWord (w : Word) : Instr :=
  if w = Machine.preambleWord then .wordPreamble
  else if w = Machine.syncWord then .wordSync
  else if w = Machine.idleWord then .wordIdle
  else if Machine.flagOfWord w then .wordMessage (Machine.groupOfWord w)
  else .wordAddress (Machine.addrHiOfWord w) (Machine.fbOfWord w)

/-- Decoding, total on request records and on words. -/
def decode : Code → Instr
  | .request r => decodeRequest r
  | .word w => decodeWord w

/-- The request record of an operation, operands it does not read at 0, and the word of a word class. -/
def encode : Instr → Code
  | .crc10 data => .request { Request.zero with op := 0x1, data := data }
  | .par32 x => .request { Request.zero with op := 0x2, x := x }
  | .encw data => .request { Request.zero with op := 0x3, data := data }
  | .aoff address => .request { Request.zero with op := 0x4, address := address }
  | .addrw address fb => .request { Request.zero with op := 0x5, address := address, fb := fb }
  | .msgw group => .request { Request.zero with op := 0x6, group := group }
  | .numd ch => .request { Request.zero with op := 0x7, ch := ch }
  | .pack mode start n => .request { Request.zero with op := 0x8, mode := modeBit mode, start := start, n := n }
  | .tx1 repidx address fb mode n =>
    .request { Request.zero with op := 0x9, repidx := repidx, address := address, fb := fb,
                                 mode := modeBit mode, n := n }
  | .txr repcnt address fb mode n =>
    .request { Request.zero with op := 0xA, repcnt := repcnt, address := address, fb := fb,
                                 mode := modeBit mode, n := n }
  | .len repidx address mode n =>
    .request { Request.zero with op := 0xB, repidx := repidx, address := address, mode := modeBit mode, n := n }
  | .reserved0 => .request { Request.zero with op := 0x0 }
  | .reservedC => .request { Request.zero with op := 0xC }
  | .reservedD => .request { Request.zero with op := 0xD }
  | .reservedE => .request { Request.zero with op := 0xE }
  | .reservedF => .request { Request.zero with op := 0xF }
  | .wordPreamble => .word Machine.preambleWord
  | .wordSync => .word Machine.syncWord
  | .wordIdle => .word Machine.idleWord
  | .wordAddress hi fb => .word (Machine.addressWord (Machine.addressOfHi hi) fb)
  | .wordMessage group => .word (Machine.messageWord group)
  | .wordCodeword data => .word (Machine.encodeCodeword data)

/-- Why bits are no instruction. -/
inductive Reject where
  /-- More bits than the 4-bit selector port carries (R21: a wider value cannot be presented). -/
  | selectorTooWide (w : Nat)
  /-- More bits than a word has (R80). -/
  | wordTooWide (w : Nat)
  /-- Neither a selector (at most one byte) nor a 32-bit word. -/
  | noSuchFormat (nbits : Nat)
  deriving DecidableEq, Repr

/-- What `nbits` bits of value `w` are, as spec/opcode_table.json numbers them: up to one byte, a request whose
selector is bits 3:0 and whose other operands are 0; 32 bits, a word of OUT. Log 2. -/
def codeOfBits (nbits w : Nat) : Except Reject Code :=
  if nbits ≤ 8 then
    if w < 16 then .ok (.request { Request.zero with op := BitVec.ofNat 4 w }) else .error (.selectorTooWide w)
  else if nbits = 32 then
    if w < 2 ^ 32 then .ok (.word (BitVec.ofNat 32 w)) else .error (.wordTooWide w)
  else .error (.noSuchFormat nbits)

/-- Decoding bits, rejecting by name. -/
def decodeBits (nbits w : Nat) : Except Reject Instr :=
  match codeOfBits nbits w with
  | .ok c => .ok (decode c)
  | .error e => .error e

/-- The instruction the decoder reads from a row's bits, `none` where it refuses. -/
def decodeTableWord (nbits w : Nat) : Option Instr :=
  match decodeBits nbits w with
  | .ok i => some i
  | .error _ => none

end Sys2Proof
end

