-- ==== Sys2Proof/Machine/Operands.lean ====
section
/-! DEFINITION. How characters become bits (42_payload_packer.md section 1), bit strings and groups. -/

namespace Sys2Proof.Machine

/-- `W`, the bits a character contributes: `TEXT_BITS` or `NUM_BITS` (R150, R221). -/
def unitBits : Mode → Nat
  | .text => 7
  | .numeric => 4

/-- `rev4(n) = {n[0], n[1], n[2], n[3]}` (R153). -/
def rev4 (n : BitVec 4) : BitVec 4 :=
  BitVec.ofBool (n.getLsbD 0) ++ BitVec.ofBool (n.getLsbD 1) ++ BitVec.ofBool (n.getLsbD 2) ++
    BitVec.ofBool (n.getLsbD 3)

/-- `NUM_DIGIT_TABLE(d)` for a digit 0 .. 9 (R155): 0 and 9 forced, the others the instance's. -/
def numDigit (p : Config.Params) (d : Nat) : BitVec 4 :=
  match d with
  | 0 => 0
  | 1 => p.digit1
  | 2 => p.digit2
  | 3 => p.digit3
  | 4 => p.digit4
  | 5 => p.digit5
  | 6 => p.digit6
  | 7 => p.digit7
  | 8 => p.digit8
  | _ => 9

/-- `numCode(c)`, the code of a character before the reversal (R152). -/
def numCode (p : Config.Params) (c : Byte) : BitVec 4 :=
  if 0x30 ≤ c.toNat ∧ c.toNat ≤ 0x39 then numDigit p (c.toNat - 0x30)
  else if c = 0x20#8 then 0x3
  else if c = 0x75#8 ∨ c = 0x55#8 then 0xD
  else if c = 0x2D#8 ∨ c = 0x5F#8 then 0xB
  else if c = 0x28#8 ∨ c = 0x5B#8 then 0xF
  else if c = 0x29#8 ∨ c = 0x5D#8 then 0x7
  else 0x5

/-- `charValue(c, mode)` (R151, R154); the numeric value stands in the low four bits. -/
def charValue (p : Config.Params) (mode : Mode) (c : Byte) : BitVec 7 :=
  match mode with
  | .text => c.extractLsb' 0 7
  | .numeric => (rev4 (numCode p c)).setWidth 7

/-- Bit `i` of `charBits(c, mode)`: the most significant of the `W` bits is bit 0 (R150). -/
def charBit (p : Config.Params) (mode : Mode) (c : Byte) (i : Nat) : Bool :=
  (charValue p mode c).getLsbD (unitBits mode - 1 - i)

/-- `charBits(c, mode)` (R150). -/
def charBits (p : Config.Params) (mode : Mode) (c : Byte) : List Bool :=
  (List.range (unitBits mode)).map (charBit p mode c)

/-- `val` of a bit string of at most 20 bits, its first bit the most significant (R12). -/
def bitsValue (bits : List Bool) : BitVec 20 :=
  bits.foldl (fun v b => (v <<< 1) ||| (BitVec.ofBool b).setWidth 20) 0#20

end Sys2Proof.Machine
end

