-- ==== Sys2Proof/Machine/Ops.lean ====
section
/-! DEFINITION. The named operations on MSG, OUT and the registers, accepting a request, refusing one (the block's
only trap entry, 60_exceptions.md rule R242) and leaving a refusal (R243). -/

namespace Sys2Proof.Machine

/-- What a character of MSG that nothing has written reads as (DESIGN CHOICE, log 8). -/
def unwrittenChar : Byte := 0#8

/-- `MemRead(MSG, i, 1)` (R13, R51). -/
def Memory.read : Memory → Nat → Byte
  | [], _ => unwrittenChar
  | (a, b) :: m, i => if a = i then b else Memory.read m i

/-- The host's write of a character (R275); a cell that would read as an unlisted one is not listed. -/
def Memory.write : Memory → Nat → Byte → Memory
  | [], i, v => if v = unwrittenChar then [] else [(i, v)]
  | (a, b) :: m, i, v =>
    if i < a then (if v = unwrittenChar then (a, b) :: m else (i, v) :: (a, b) :: m)
    else if i = a then (if v = unwrittenChar then m else (i, v) :: m)
    else (a, b) :: Memory.write m i v

/-- The canonical form from index `lo` on. -/
def Memory.wfFrom : Nat → Memory → Bool
  | _, [] => true
  | lo, (a, b) :: m => decide (lo ≤ a) && (b != unwrittenChar && Memory.wfFrom (a + 1) m)

/-- The canonical form: indices strictly rising, no cell equal to what an unlisted index reads as. -/
def Memory.wf (m : Memory) : Bool := Memory.wfFrom 0 m

/-- The message of a request of length `n`: `MSG[0 .. n-1]`. -/
def messageOf (m : Memory) (n : Nat) : List Byte := (List.range n).map (Memory.read m)

/-- The `OP` value of PACK (R95). -/
def packOp : BitVec 4 := 0x8#4

/-- The latched mode (R21). -/
def modeOf (s : State) : Mode := modeOfBit s.req.mode

/-- `aoff` of the latched address (R195). -/
def aoffOf (s : State) : BitVec 4 := addressOffset s.req.address

/-- `Emit(w)` (R13, R52): append one word to OUT. -/
def emit (w : Word) (s : State) : State := { s with out := s.out ++ [w], outp := s.outp + 1 }

/-- `EmitC(w)` (R219): append one word and count it. -/
def emitC (w : Word) (s : State) : State :=
  { emit w s with work := { s.work with cnt := nextCount s.work.cnt } }

/-- The emission of the payload phase: `Emit` in PACK, `EmitC` in TX1 and TXR (R181, R183, R211). -/
def emitPayload (w : Word) (s : State) : State :=
  { emit w s with
    work := { s.work with cnt := if s.req.op = packOp then s.work.cnt else nextCount s.work.cnt } }

/-- `EmitData(w)` (R181): append a message codeword and count its slot. -/
def emitData (w : Word) (s : State) : State :=
  { emitPayload w s with
    work := { (emitPayload w s).work with
              wpos := nextSlot s.work.wpos, sp := syncAfter s.work.wpos s.work.sp } }

/-- The end of a stream operation: `PH <- DONE; DONE <- 1` (R211, R213, R206). The working registers hold no value
again (R38) and neither does `RES` (93_implementation_defined.md U9): free values (log 5, log 7). -/
def finish (s : State) : State :=
  { s with
    ph := .done, done := true, work := Working.unwritten s.free,
    res := Config.freeValue s.free 10, free := s.free + 1 }

/-- Taking a refusal, the block's only trap entry (R242): `ERR <- cause; DONE <- 1; OUTP <- 0; PH <- DONE`; OUT, the
working registers and everything else stay. `RES` "is not written and holds no value": a free value (U9, log 7). -/
def takeRefusal (c : Cause) (s : State) : State :=
  { s with
    err := causeCode c, done := true, outp := 0, ph := .done,
    res := Config.freeValue s.free 10, free := s.free + 1 }

/-- What acceptance clears (R262), which is also how a refusal is left (R243). -/
def accept (s : State) : State := { s with done := false, err := 0, outp := 0 }

/-- A request is accepted in READY and DONE only (R262). -/
def whenIdle (s : State) (k : State → Result) : Result :=
  if s.ph.idle then k (accept s) else .refused .requestWhileRunning

/-- An accepted request whose operand `N` is checked first (R239, R262). -/
def withLength (n : Nat) (s : State) (k : State → Result) : Result :=
  whenIdle s fun t => if tooLong t.params n then .next (takeRefusal .msgTooLong t) else k t

/-- The end of a scalar operation, in the accepting step (R262): `RES <- v; DONE <- 1; PH <- DONE`. -/
def scalarDone (v : Nat) (s : State) : State := { s with res := v, done := true, ph := .done }

/-- A scalar operation that cannot be refused by the block. -/
def scalar (v : Nat) (s : State) : Result := whenIdle s fun t => .next (scalarDone v t)

/-- A request with a reserved selector (R98, R239). -/
def refuseSelector (s : State) : Result := whenIdle s fun t => .next (takeRefusal .reservedOp t)

/-- The start of a stream operation: the operands are latched (R21), OUT starts empty (R52). -/
def openStream (r : Request) (s : State) : State := { s with req := r, out := [] }

/-- On acceptance the whole record is latched and the port is free (R21, R262). -/
def latch (r : Request) (s : State) : State := { s with req := r, port := none }

end Sys2Proof.Machine
end

