-- ==== Sys2Proof/Machine/Codeword.lean ====
section
/-! DEFINITION. The operations of the codeword encoder: ENCW, AOFF, ADDRW, MSGW (41_codeword_encoder.md). -/

namespace Sys2Proof.Machine

/-- ENCW (R130). -/
def execEncw (data : BitVec 21) (s : State) : Result := scalar (encodeCodeword data).toNat s

/-- AOFF (R133). -/
def execAoff (address : BitVec 21) (s : State) : Result := scalar (addressOffset address).toNat s

/-- ADDRW (R134). -/
def execAddrw (address : BitVec 21) (fb : BitVec 2) (s : State) : Result := scalar (addressWord address fb).toNat s

/-- MSGW (R135). -/
def execMsgw (group : BitVec 20) (s : State) : Result := scalar (messageWord group).toNat s

end Sys2Proof.Machine
end

