-- ==== Sys2Proof/Machine/Payload.lean ====
section
/-! DEFINITION. The payload bit-packer at Level F (42_payload_packer.md section 2) and NUMD (R154). -/

namespace Sys2Proof.Machine

/-- `pbits(msg, mode)` (R156). -/
def payloadBits (p : Config.Params) (mode : Mode) (msg : List Byte) : List Bool :=
  msg.flatMap (charBits p mode)

/-- `ceil(len / 20)` (R11, R159). -/
def groupCount (len : Nat) : Nat := (len + 19) / 20

/-- Group `g` of a bit string, zero-filled on the right (R158, R159). -/
def groupAt (bits : List Bool) (g : Nat) : BitVec 20 :=
  let raw := (bits.drop (20 * g)).take 20
  bitsValue (raw ++ List.replicate (20 - raw.length) false)

/-- `groups(bits)` (R159). -/
def groups (bits : List Bool) : List (BitVec 20) := (List.range (groupCount bits.length)).map (groupAt bits)

/-- `payloadWords(msg, mode)` (R159). -/
def payloadWords (p : Config.Params) (mode : Mode) (msg : List Byte) : List Word :=
  (groups (payloadBits p mode msg)).map messageWord

/-- NUMD (R154). -/
def execNumd (ch : Byte) (s : State) : Result := scalar (rev4 (numCode s.params ch)).toNat s

end Sys2Proof.Machine
end

