-- ==== Sys2Proof/Machine/Inject.lean ====
section
/-! DEFINITION. The sync injector (43_sync_injector.md): `inject` and PACK at Level F, and the operation PACK. -/

namespace Sys2Proof.Machine

/-- `inject(start, words)` (R181): a Sync after each word with which the counter reaches 16. -/
def inject : Nat → List Word → List Word
  | _, [] => []
  | wpos, w :: ws => if wpos + 1 = 16 then w :: syncWord :: inject 0 ws else w :: inject (wpos + 1) ws

/-- `PACK(mode, start, msg)` at Level F (R183). -/
def packWords (p : Config.Params) (mode : Mode) (start : BitVec 4) (msg : List Byte) : List Word :=
  inject start.toNat (payloadWords p mode msg)

/-- The start of PACK (R183); the registers it does not use keep what they hold. -/
def startPack (start : BitVec 4) (s : State) : State :=
  { s with
    work := { s.work with wpos := start, acc := 0, nb := 0, sp := false, ci := 0, bi := 0 }, ph := .payload }

/-- PACK (R183). -/
def execPack (mode : Mode) (start : BitVec 4) (n : Nat) (s : State) : Result :=
  withLength n s fun t =>
    .next (startPack start
      (openStream { t.req with op := packOp, mode := modeBit mode, start := start, n := n } t))

end Sys2Proof.Machine
end

