-- ==== Sys2Proof/Machine/Compose.lean ====
section
/-! DEFINITION. The frame composer (44_frame_composer.md): TX1 and TXR at Level F (R203, R204) and their start
in the sequencer (R206). -/

namespace Sys2Proof.Machine

/-- Step 1 (R196). -/
def preambleWords (repidx : Nat) : List Word := if repidx = 0 then List.replicate 18 preambleWord else []

/-- Steps 2 to 6 (R197 to R201). -/
def repeatBody (p : Config.Params) (address : BitVec 21) (fb : BitVec 2) (mode : Mode) (msg : List Byte) :
    List Word :=
  [syncWord] ++ List.replicate (addressOffset address).toNat idleWord ++ [addressWord address fb] ++
    inject ((addressOffset address).toNat + 1) (payloadWords p mode msg) ++ [idleWord]

/-- Step 7 (R202): the padding after `c` words. -/
def paddingWords (c : Nat) : List Word := List.replicate ((17 - c % 17) % 17) idleWord

/-- `TX1` at Level F (R203). -/
def tx1Words (p : Config.Params) (repidx : Nat) (address : BitVec 21) (fb : BitVec 2) (mode : Mode)
    (msg : List Byte) : List Word :=
  preambleWords repidx ++ repeatBody p address fb mode msg ++
    paddingWords (repeatBody p address fb mode msg).length

/-- `TXR` at Level F (R204): the repeats 0 .. repcnt - 1 laid end to end. -/
def txrWords (p : Config.Params) (repcnt : Nat) (address : BitVec 21) (fb : BitVec 2) (mode : Mode)
    (msg : List Byte) : List Word :=
  (List.range repcnt).flatMap fun i => tx1Words p i address fb mode msg

/-- The start of the sequencer (R206) for repeats `repi .. rend - 1`. -/
def startRepeats (repi rend : Nat) (s : State) : State :=
  if repi = rend then finish { s with work := { s.work with repi := repi, rend := rend } }
  else if repi = 0 then { s with work := { s.work with repi := repi, rend := rend, k := 0 }, ph := .pre }
  else { s with work := { s.work with repi := repi, rend := rend }, ph := .sync0 }

/-- TX1 (R203, R206). -/
def execTx1 (repidx : Nat) (address : BitVec 21) (fb : BitVec 2) (mode : Mode) (n : Nat) (s : State) : Result :=
  withLength n s fun t =>
    .next (startRepeats repidx (repidx + 1)
      (openStream { t.req with op := 0x9, repidx := repidx, address := address, fb := fb,
                               mode := modeBit mode, n := n } t))

/-- TXR (R204, R206). -/
def execTxr (repcnt : Nat) (address : BitVec 21) (fb : BitVec 2) (mode : Mode) (n : Nat) (s : State) : Result :=
  withLength n s fun t =>
    .next (startRepeats 0 repcnt
      (openStream { t.req with op := 0xA, repcnt := repcnt, address := address, fb := fb,
                               mode := modeBit mode, n := n } t))

end Sys2Proof.Machine
end

