-- ==== Sys2Proof/Machine/CrcParity.lean ====
section
/-! DEFINITION. The operations of the CRC/BCH parity generator: CRC10, PAR32 (40_crc_parity.md section 2). -/

namespace Sys2Proof.Machine

/-- CRC10 (R111). -/
def execCrc10 (data : BitVec 21) (s : State) : Result := scalar (crc data).toNat s

/-- PAR32 (R112). -/
def execPar32 (x : BitVec 32) (s : State) : Result := scalar (parity x).toNat s

end Sys2Proof.Machine
end

