-- ==== Sys2Proof/Machine/Length.lean ====
section
/-! DEFINITION. The length estimator (45_length_estimator.md): `LEN` at Level F and the operation. -/

namespace Sys2Proof.Machine

/-- The data words before padding: Idle prefix, address word, payload words, terminator (R220). -/
def dataWords (address : BitVec 21) (mode : Mode) (n : Nat) : Nat :=
  (addressOffset address).toNat + 1 + (n * unitBits mode + 19) / 20 + 1

/-- Padding to a full batch of data words (R220). -/
def padToBatch (words : Nat) : Nat := words + (16 - words % 16) % 16

/-- One Sync word per batch (R220). -/
def withSyncs (words : Nat) : Nat := words + words / 16

/-- `LEN(repidx, address, n, mode)` (R220). -/
def lengthOf (repidx : Nat) (address : BitVec 21) (n : Nat) (mode : Mode) : Nat :=
  withSyncs (padToBatch (dataWords address mode n)) + if repidx = 0 then 18 else 0

/-- LEN (R220). -/
def execLen (repidx : Nat) (address : BitVec 21) (mode : Mode) (n : Nat) (s : State) : Result :=
  withLength n s fun t => .next (scalarDone (lengthOf repidx address n mode) t)

end Sys2Proof.Machine
end

