-- ==== Sys2Proof/Machine/Reserved.lean ====
section
/-! DEFINITION. The reserved selectors 0x0 and 0xC to 0xF (30_encoding.md rule R98). -/

namespace Sys2Proof.Machine

/-- Selector 0x0 (R98). -/
def execReserved0 (s : State) : Result := refuseSelector s

/-- Selector 0xC (R98). -/
def execReservedC (s : State) : Result := refuseSelector s

/-- Selector 0xD (R98). -/
def execReservedD (s : State) : Result := refuseSelector s

/-- Selector 0xE (R98). -/
def execReservedE (s : State) : Result := refuseSelector s

/-- Selector 0xF (R98). -/
def execReservedF (s : State) : Result := refuseSelector s

end Sys2Proof.Machine
end

