-- ==== Sys2Proof/Machine/Sequencer.lean ====
section
/-! DEFINITION. The reference sequencer, Level S (44_frame_composer.md rules R206 to R214, R219; 42_payload_packer.md
rules R156 to R158): one definition per kind of step. -/

namespace Sys2Proof.Machine

/-- Phase PRE (R207). -/
def preStep (s : State) : State :=
  { emit preambleWord s with
    work := { s.work with k := s.work.k + 1 }
    ph := if s.work.k + 1 = 18#5 then .sync0 else s.ph }

/-- Phase SYNC0 (R208). -/
def sync0Step (s : State) : State :=
  { emit syncWord s with
    work := { s.work with cnt := 1, k := 0 }
    ph := if aoffOf s = 0#4 then .addr else .idlePrefix }

/-- Phase PREFIX (R209). -/
def prefixStep (s : State) : State :=
  { emitC idleWord s with
    work := { (emitC idleWord s).work with k := s.work.k + 1 }
    ph := if s.work.k + 1 = (aoffOf s).setWidth 5 then .addr else s.ph }

/-- Phase ADDR (R210): the address codeword, and the payload encoder's registers initialised. -/
def addrStep (s : State) : State :=
  { emitC (addressWord s.req.address s.req.fb) s with
    work := { (emitC (addressWord s.req.address s.req.fb) s).work with
              wpos := aoffOf s + 1, acc := 0, nb := 0, sp := false, ci := 0, bi := 0 }
    ph := .payload }

/-- Phase PAYLOAD, line 1 (R211, R181): the pending Sync. -/
def pendingSyncStep (s : State) : State :=
  { emitPayload syncWord s with work := { (emitPayload syncWord s).work with sp := false } }

/-- Phase PAYLOAD, line 2: the flush step (R157). -/
def flushStep (s : State) : State :=
  { emitData (messageWord s.work.acc) s with
    work := { (emitData (messageWord s.work.acc) s).work with acc := 0, nb := 0 } }

/-- Phase PAYLOAD, line 3: the shift step (R156). -/
def shiftStep (s : State) : State :=
  let b := charBit s.params (modeOf s) (Memory.read s.msg s.work.ci) s.work.bi.toNat
  let last := s.work.bi.toNat = unitBits (modeOf s) - 1
  { s with
    work := { s.work with
              acc := (s.work.acc <<< 1) ||| (BitVec.ofBool b).setWidth 20
              nb := s.work.nb + 1
              bi := if last then 0 else s.work.bi + 1
              ci := if last then s.work.ci + 1 else s.work.ci } }

/-- Phase PAYLOAD, line 4: the pad step (R158). -/
def fillStep (s : State) : State :=
  { s with work := { s.work with acc := s.work.acc <<< (20 - s.work.nb.toNat), nb := 20 } }

/-- Phase PAYLOAD, line 5 (R211): on to the terminator, or the end of PACK. -/
def leaveStep (s : State) : State := if s.req.op = packOp then finish s else { s with ph := .term }

/-- Phase TERM (R212). -/
def termStep (s : State) : State := { emitC idleWord s with ph := .pad }

/-- Phase PAD, `CNT != 0` (R213). -/
def padStep (s : State) : State := emitC idleWord s

/-- Phase PAD, `CNT == 0` (R213): the next repeat, or the end. -/
def nextRepeatStep (s : State) : State :=
  if s.work.repi + 1 = s.work.rend then finish { s with work := { s.work with repi := s.work.repi + 1 } }
  else { s with work := { s.work with repi := s.work.repi + 1 }, ph := .sync0 }

/-- The class of the word that the sequencer's next step appends; `none` where that step appends nothing. -/
def due (s : State) : Option Instr :=
  match s.ph with
  | .ready => none
  | .pre => some .wordPreamble
  | .sync0 => some .wordSync
  | .idlePrefix => some .wordIdle
  | .addr => some (.wordAddress (s.req.address.extractLsb' 3 18) s.req.fb)
  | .payload =>
    if s.work.sp then some .wordSync
    else if s.work.nb = 20#5 then some (.wordMessage s.work.acc)
    else none
  | .term => some .wordIdle
  | .pad => if s.work.cnt = 0#5 then none else some .wordIdle
  | .done => none

/-- The codeword the next step appends (Sync, Idle, address or message, R81), where it appends one. -/
def dueCodeword (s : State) : Option Word :=
  match s.ph with
  | .ready => none
  | .pre => none
  | .sync0 => some syncWord
  | .idlePrefix => some idleWord
  | .addr => some (addressWord s.req.address s.req.fb)
  | .payload =>
    if s.work.sp then some syncWord
    else if s.work.nb = 20#5 then some (messageWord s.work.acc)
    else none
  | .term => some idleWord
  | .pad => if s.work.cnt = 0#5 then none else some idleWord
  | .done => none

/-- The step that appends the due codeword, of whatever class (R208 to R213). -/
def codewordStep (s : State) : State :=
  match s.ph with
  | .ready => s
  | .pre => s
  | .sync0 => sync0Step s
  | .idlePrefix => prefixStep s
  | .addr => addrStep s
  | .payload => if s.work.sp then pendingSyncStep s else flushStep s
  | .term => termStep s
  | .pad => padStep s
  | .done => s

/-- The step of a running phase that appends nothing (R211 lines 3 to 5, R213). -/
def silentStep (s : State) : State :=
  match s.ph with
  | .ready => s
  | .pre => s
  | .sync0 => s
  | .idlePrefix => s
  | .addr => s
  | .payload =>
    if s.work.ci < s.req.n then shiftStep s
    else if s.work.nb = 0#5 then leaveStep s
    else fillStep s
  | .term => s
  | .pad => nextRepeatStep s
  | .done => s

end Sys2Proof.Machine
end

