-- ==== Sys2Proof/Machine/WordClass.lean ====
section
/-! DEFINITION. The word classes of OUT (30_encoding.md sections 1 to 3, 41_codeword_encoder.md rule R136): the
meaning of each is the sequencer's step that appends a word of that class, where that step is the next one. Log 1. -/

namespace Sys2Proof.Machine

/-- WORD.PREAMBLE: step 1's word (R196, R207). -/
def execWordPreamble (s : State) : Result :=
  if due s = some .wordPreamble then .next (preStep s) else .fault .wordNotDue

/-- WORD.SYNC: the batch-start Sync (R197, R208), or the pending Sync of the injector (R181, R211). -/
def execWordSync (s : State) : Result :=
  if due s = some .wordSync then
    .next (if s.ph = .sync0 then sync0Step s else pendingSyncStep s)
  else .fault .wordNotDue

/-- WORD.IDLE: the prefix (R198, R209), the terminator (R201, R212), the padding (R202, R213). -/
def execWordIdle (s : State) : Result :=
  if due s = some .wordIdle then
    .next (if s.ph = .idlePrefix then prefixStep s else if s.ph = .term then termStep s else padStep s)
  else .fault .wordNotDue

/-- WORD.ADDRESS: step 4's word (R199, R210). -/
def execWordAddress (addrHi : BitVec 18) (fb : BitVec 2) (s : State) : Result :=
  if due s = some (.wordAddress addrHi fb) then .next (addrStep s) else .fault .wordNotDue

/-- WORD.MESSAGE: the flush step's word (R157, R181). -/
def execWordMessage (group : BitVec 20) (s : State) : Result :=
  if due s = some (.wordMessage group) then .next (flushStep s) else .fault .wordNotDue

/-- WORD.CODEWORD, the generic format of every codeword (R81, R130): the due codeword is the one with this data. -/
def execWordCodeword (data : BitVec 21) (s : State) : Result :=
  if dueCodeword s = some (encodeCodeword data) then .next (codewordStep s) else .fault .wordNotDue

end Sys2Proof.Machine
end

