-- ==== Sys2Proof/Machine/Dispatch.lean ====
section
/-! DEFINITION. The dispatch: one arm per constructor of Instr. -/

namespace Sys2Proof.Machine

def exec (i : Instr) (s : State) : Host.Outcome State Fault Refusal :=
  match i with
  -- scalar operations
  | .crc10 data => Sys2Proof.Machine.execCrc10 data s
  | .par32 x => Sys2Proof.Machine.execPar32 x s
  | .encw data => Sys2Proof.Machine.execEncw data s
  | .aoff address => Sys2Proof.Machine.execAoff address s
  | .addrw address fb => Sys2Proof.Machine.execAddrw address fb s
  | .msgw group => Sys2Proof.Machine.execMsgw group s
  | .numd ch => Sys2Proof.Machine.execNumd ch s
  -- stream operations
  | .pack mode start n => Sys2Proof.Machine.execPack mode start n s
  | .tx1 repidx address fb mode n => Sys2Proof.Machine.execTx1 repidx address fb mode n s
  | .txr repcnt address fb mode n => Sys2Proof.Machine.execTxr repcnt address fb mode n s
  | .len repidx address mode n => Sys2Proof.Machine.execLen repidx address mode n s
  -- reserved selectors
  | .reserved0 => Sys2Proof.Machine.execReserved0 s
  | .reservedC => Sys2Proof.Machine.execReservedC s
  | .reservedD => Sys2Proof.Machine.execReservedD s
  | .reservedE => Sys2Proof.Machine.execReservedE s
  | .reservedF => Sys2Proof.Machine.execReservedF s
  -- word classes of OUT
  | .wordPreamble => Sys2Proof.Machine.execWordPreamble s
  | .wordSync => Sys2Proof.Machine.execWordSync s
  | .wordIdle => Sys2Proof.Machine.execWordIdle s
  | .wordAddress addrHi fb => Sys2Proof.Machine.execWordAddress addrHi fb s
  | .wordMessage group => Sys2Proof.Machine.execWordMessage group s
  | .wordCodeword data => Sys2Proof.Machine.execWordCodeword data s

end Sys2Proof.Machine
end

