-- ==== Sys2Proof/Machine/Fetch.lean ====
section
/-! DEFINITION. What the block does next: accept the presented request (70_reset_and_hazards.md rule R262), or take
the sequencer's next step; and placing an instruction there. -/

namespace Sys2Proof.Machine

/-- What the next step is. -/
inductive Fetched where
  /-- An instruction, run in this state. -/
  | run (i : Instr) (s : State)
  /-- A step of the sequencer that appends nothing. -/
  | silent (s : State)
  /-- No step. -/
  | stuck (f : Fault)
  /-- A host that has no such move. -/
  | barred (r : Refusal)
  deriving DecidableEq, Repr

/-- READY or DONE: the presented request is latched and decoded (R262). A running phase: the step of the
sequencer; a request presented then has no meaning (R262, U3). -/
def fetch (s : State) : Fetched :=
  if s.ph.idle then
    match s.port with
    | none => .stuck .noStepEnabled
    | some r => if r.fits s.params then .run (decodeRequest r) (latch r s) else .barred .operandTooWide
  else
    match s.port with
    | some _ => .barred .requestWhileRunning
    | none =>
      match due s with
      | some i => .run i s
      | none => .silent (silentStep s)

/-- The state in which a request is presented, and a phase in which it is accepted (R262). -/
def placeRequest (r : Request) (s : State) : State :=
  { s with port := some r, ph := if s.ph.idle then s.ph else .ready }

/-- The state in which the sequencer's next step, inside a TX1, appends a word of this class (R207 to R212). Only the
classes that `decodeWord` answers are placed. -/
def placeWord (i : Instr) (s : State) : State :=
  match i with
  | .wordPreamble => { s with port := none, ph := .pre, work := { s.work with k := 0 } }
  | .wordSync => { s with port := none, ph := .sync0 }
  | .wordIdle => { s with port := none, ph := .term }
  | .wordAddress hi fb =>
    { s with port := none, ph := .addr, req := { s.req with op := 0x9, address := addressOfHi hi, fb := fb } }
  | .wordMessage group =>
    { s with
      port := none, ph := .payload, req := { s.req with op := 0x9 }
      work := { s.work with acc := group, nb := 20, sp := false } }
  | .crc10 _ => s
  | .par32 _ => s
  | .encw _ => s
  | .aoff _ => s
  | .addrw _ _ => s
  | .msgw _ => s
  | .numd _ => s
  | .pack _ _ _ => s
  | .tx1 _ _ _ _ _ => s
  | .txr _ _ _ _ _ => s
  | .len _ _ _ _ => s
  | .reserved0 => s
  | .reservedC => s
  | .reservedD => s
  | .reservedE => s
  | .reservedF => s
  | .wordCodeword _ => s

/-- Placing what the bits of a table row are: a request on the port, a word at the sequencer. -/
def placeCode (c : Code) (s : State) : State :=
  match c with
  | .request r => placeRequest r s
  | .word w => placeWord (decodeWord w) s

/-- Placing the instruction with these bits; bits that are no instruction place nothing. -/
def placeBits (nbits w : Nat) (s : State) : State :=
  match codeOfBits nbits w with
  | .ok c => placeCode c s
  | .error _ => s

end Sys2Proof.Machine
end

