-- ==== Sys2Proof/Machine/Step.lean ====
section
/-! DEFINITION. One step of the block. -/

namespace Sys2Proof.Machine

/-- One step: the accepted request's operation, or the sequencer's next step (R206 to R214, R262). -/
def step (s : State) : Host.Outcome State Fault Refusal :=
  match fetch s with
  | .run i t => exec i t
  | .silent t => .next t
  | .stuck f => .fault f
  | .barred r => .refused r

/-- `s` with the instruction of a table row where `step` takes its next one (log 4). -/
def State.withFetchWord (s : State) (nbits w : Nat) : State := placeBits nbits w s

end Sys2Proof.Machine
end

