-- ==== Sys2Proof/Machine/Grammar.lean ====
section
/-! DEFINITION. Reading OUT: the role of a word by position first (20_memory.md rules R59 to R65, 30_encoding.md
rules R96, R97). The block never does this (R94); the statements about OUT do. -/

namespace Sys2Proof.Machine

/-- The roles of the words of OUT (R15, R16). -/
inductive Role where
  | preamble
  | sync
  | idle
  | address
  | message
  deriving DecidableEq, Repr

/-- `P`, the preamble's length (R59). -/
def preambleLength (repidx : Nat) : Nat := if repidx = 0 then 18 else 0

/-- The role of word `w` at index `idx` of one repeat (R97): by position first, a slot by value; the address slot is
slot `aoff` of the first batch (R63). -/
def roleAt (repidx : Nat) (address : BitVec 21) (idx : Nat) (w : Word) : Role :=
  if idx < preambleLength repidx then .preamble
  else if (idx - preambleLength repidx) % 17 = 0 then .sync
  else if idx - preambleLength repidx = 1 + (addressOffset address).toNat then .address
  else if flagOfWord w then .message
  else if w = idleWord then .idle
  else .address

end Sys2Proof.Machine
end

