-- ==== Sys2Proof/Machine/HostPort.lean ====
section
/-! DEFINITION. What the host may do to the block (70_reset_and_hazards.md rules R260, R262, R265, R275),
and how it sees OUT as bytes (20_memory.md rule R55). -/

namespace Sys2Proof.Machine

/-- Presenting a request (R262, R275): only in READY or DONE, operands within their ports (R21). A request that is
presented and not yet accepted may be replaced (DESIGN CHOICE, log 19). -/
def hostPresent (r : Request) (s : State) : Result :=
  if s.ph.idle then
    if r.fits s.params then .next { s with port := some r } else .refused .operandTooWide
  else .refused .requestWhileRunning

/-- Writing a character of MSG (R275); MSG is held still while an operation runs (R70, R265). Between the presenting of
a request and its acceptance MSG may still be written (DESIGN CHOICE, log 19). -/
def hostWriteMsg (i : Nat) (c : Byte) (s : State) : Result :=
  if s.ph.idle then .next { s with msg := Memory.write s.msg i c } else .refused .operandsHeld

/-- The reset input (R260), at any time: it abandons an operation; the working registers and the operands hold no
value (R37, log 5, log 6), MSG, OUT and what the host presents are not part of the block and stay. -/
def hostReset (s : State) : State :=
  { s with
    ph := .ready, done := false, err := 0, res := 0, outp := 0,
    req := Request.unpresented s.free, work := Working.unwritten s.free, free := s.free + 1 }

/-- The bytes of a word, 0 the most significant, in the order in which the host reads them (R55). -/
def bytePositions (o : Config.ByteOrder) : List Nat :=
  let rest := [0, 1, 2, 3].eraseIdx o.first
  let last := rest.eraseIdx o.second
  [[0, 1, 2, 3].getD o.first 0, rest.getD o.second 0, last.getD o.third 0, (last.eraseIdx o.third).getD 0 0]

/-- A word as a host that reads bytes sees it (R6, R55). -/
def wordBytes (o : Config.ByteOrder) (w : Word) : List Byte :=
  (bytePositions o).map fun k => w.extractLsb' (8 * (3 - k)) 8

/-- OUT as a host that reads bytes sees it: word by word, the words whole and in order, the bytes of each by
`OUT_BYTE_ORDER` (R55, R274). No step reads it. -/
def hostReadBytes (s : State) : List Byte := s.out.flatMap (wordBytes s.params.outByteOrder)

end Sys2Proof.Machine
end

