-- ==== Sys2Proof/Safety.lean ====
section
/-! DEFINITION. What a good state is, and the terms statements use: runs of steps, the state after a scalar
operation, the number of one bits, the product with the generator. -/

namespace Sys2Proof.Machine

/-- DONE is set exactly in phase DONE; ERR is never 3 (R240), is 0 while an operation runs (R262), and a refused
request left OUTP at 0 (R242). -/
def statusGood (s : State) : Prop :=
  (s.done = true ↔ s.ph = .done) ∧ s.err ≠ 3#2 ∧ (s.ph.idle = false → s.err = 0#2) ∧ (s.err ≠ 0#2 → s.outp = 0)

/-- While an operation runs, it is one of the three stream operations, its message is not too long, OUT has `OUTP`
words (R52), and PACK is in its payload phase (R183). -/
def streamGood (s : State) : Prop :=
  s.ph.idle = false →
    (s.req.op = 0x8#4 ∨ s.req.op = 0x9#4 ∨ s.req.op = 0xA#4) ∧ tooLong s.params s.req.n = false ∧
      s.out.length = s.outp ∧ (s.req.op = 0x8#4 → s.ph = .payload)

/-- The repeats of TX1 and TXR (R29): REPI is below REND, only repeat 0 has a preamble, TX1 composes one repeat. -/
def repeatGood (s : State) : Prop :=
  s.ph.idle = false → s.req.op ≠ 0x8#4 →
    s.work.repi < s.work.rend ∧ (s.ph = .pre → s.work.repi = 0) ∧
      (s.req.op = 0x9#4 → s.work.repi = s.req.repidx ∧ s.work.rend = s.req.repidx + 1) ∧
      (s.req.op = 0xA#4 → s.work.rend = s.req.repcnt)

/-- The packer's registers in their ranges (R22, R23, R28), and a pending Sync only at slot 0 (R25, R36). -/
def packerGood (s : State) : Prop :=
  s.ph = .payload →
    s.work.nb.toNat ≤ 20 ∧ s.work.acc.toNat < 2 ^ s.work.nb.toNat ∧ s.work.ci ≤ s.req.n ∧
      s.work.bi.toNat < unitBits (modeOf s) ∧ (s.work.ci = s.req.n → s.work.bi = 0#3) ∧
      (s.work.sp = true → s.work.wpos = 0#4)

/-- The counters of TX1 and TXR phase by phase (R26, R27, R36, R205). -/
def counterGood (s : State) : Prop :=
  s.req.op ≠ 0x8#4 →
    (s.ph = .pre → s.work.k.toNat < 18) ∧
    (s.ph = .idlePrefix → s.work.k.toNat < (aoffOf s).toNat ∧ s.work.cnt.toNat = s.work.k.toNat + 1) ∧
    (s.ph = .addr → s.work.cnt.toNat = (aoffOf s).toNat + 1) ∧
    (s.ph = .payload →
      (s.work.sp = true → s.work.cnt = 0#5) ∧
      (s.work.sp = false → s.work.cnt.toNat = (s.work.wpos.toNat + 1) % 17)) ∧
    (s.ph = .term → s.work.cnt.toNat = s.work.wpos.toNat + 1) ∧
    (s.ph = .pad → s.work.cnt.toNat ≤ 16 ∧ s.work.cnt ≠ 1#5)

/-- The invariant of the block: what every step and every move of the host keeps. -/
def BlockInv (s : State) : Prop :=
  Memory.wf s.msg = true ∧ statusGood s ∧ streamGood s ∧ repeatGood s ∧ packerGood s ∧ counterGood s

/-- `k` steps, none of which stops. -/
def stepN : Nat → State → Result
  | 0, s => .next s
  | k + 1, s =>
    match step s with
    | .next t => stepN k t
    | .fault f => .fault f
    | .refused r => .refused r

/-- The request `i`, made in `s`, is accepted and runs to DONE in at most `bound` further steps, ending in `t`. -/
def runsWithin (i : Instr) (s : State) (bound : Nat) (t : State) : Prop :=
  ∃ u k, exec i s = .next u ∧ k ≤ bound ∧ stepN k u = .next t ∧ t.ph = .done

/-- The request `i`, made in `s`, is accepted and runs to DONE, ending in `t`. -/
def runsTo (i : Instr) (s t : State) : Prop := ∃ bound, runsWithin i s bound t

/-- The state after a scalar operation with result `v` (R262): everything else is as in `s`. -/
def afterScalar (v : Nat) (s : State) : State :=
  { s with ph := .done, done := true, err := 0, outp := 0, res := v }

/-- The state after a refusal (R242): everything else is as in `s`, but for `RES`, which holds no value (here `v`),
and the count of the draws. -/
def afterRefusal (code : BitVec 2) (v : Nat) (s : State) : State :=
  { s with ph := .done, done := true, err := code, outp := 0, res := v, free := s.free + 1 }

/-- The number of one bits of the low `n` bits. -/
def onesCount {w : Nat} (x : BitVec w) : Nat → Nat
  | 0 => 0
  | n + 1 => (if x.getLsbD n then 1 else 0) + onesCount x n

/-- The exclusive-or of `generator << i` over the set bits `i < n` of `q`. -/
def generatorSum (q : BitVec 21) : Nat → BitVec 31
  | 0 => 0
  | n + 1 => (if q.getLsbD n then generator.setWidth 31 <<< n else 0) ^^^ generatorSum q n

/-- The product over GF(2) of a polynomial of degree at most 20 and the generator. -/
def generatorMultiple (q : BitVec 21) : BitVec 31 := generatorSum q 21

/-- The exclusive-or of the entries of a table at the set bits of `d` below `n`. -/
def tableSum (table : List (BitVec 10)) (d : BitVec 21) : Nat → BitVec 10
  | 0 => 0
  | n + 1 => (if d.getLsbD n then table.getD n 0 else 0) ^^^ tableSum table d n

/-- `crc(1 << i)` for i = 0 .. 20, as R115 lists it. -/
def crcTable : List (BitVec 10) :=
  [0x369, 0x1BB, 0x376, 0x185, 0x30A, 0x17D, 0x2FA] ++ [0x29D, 0x253, 0x3CF, 0x0F7, 0x1EE, 0x3DC, 0x0D1] ++
    [0x1A2, 0x344, 0x1E1, 0x3C2, 0x0ED, 0x1DA, 0x3B4]

/-- The word R59 puts at position `j` from a repeat's first Sync, `payload` being its message codewords. -/
def mapWord (address : BitVec 21) (fb : BitVec 2) (payload : List Word) (j : Nat) : Word :=
  let aoff := (addressOffset address).toNat
  let slot := j - 1 - j / 17
  if j % 17 = 0 then syncWord
  else if slot < aoff then idleWord
  else if slot = aoff then addressWord address fb
  else payload.getD (slot - aoff - 1) idleWord

/-- The mirror of a 4-bit value as a number (R153). -/
def mirror4 (n : BitVec 4) : Nat :=
  n.toNat % 2 * 8 + n.toNat / 2 % 2 * 4 + n.toNat / 4 % 2 * 2 + n.toNat / 8

/-- The instruction is a request: an operation or a reserved selector, not a word class. -/
def isRequest : Instr → Bool
  | .crc10 _ => true
  | .par32 _ => true
  | .encw _ => true
  | .aoff _ => true
  | .addrw _ _ => true
  | .msgw _ => true
  | .numd _ => true
  | .pack _ _ _ => true
  | .tx1 _ _ _ _ _ => true
  | .txr _ _ _ _ _ => true
  | .len _ _ _ _ => true
  | .reserved0 => true
  | .reservedC => true
  | .reservedD => true
  | .reservedE => true
  | .reservedF => true
  | .wordPreamble => false
  | .wordSync => false
  | .wordIdle => false
  | .wordAddress _ _ => false
  | .wordMessage _ => false
  | .wordCodeword _ => false

/-- The length of the message the instruction reads from MSG; `none` for one that reads none (R51, R95). -/
def messageRead : Instr → Option Nat
  | .pack _ _ n => some n
  | .tx1 _ _ _ _ n => some n
  | .txr _ _ _ _ n => some n
  | .crc10 _ => none
  | .par32 _ => none
  | .encw _ => none
  | .aoff _ => none
  | .addrw _ _ => none
  | .msgw _ => none
  | .numd _ => none
  | .len _ _ _ _ => none
  | .reserved0 => none
  | .reservedC => none
  | .reservedD => none
  | .reservedE => none
  | .reservedF => none
  | .wordPreamble => none
  | .wordSync => none
  | .wordIdle => none
  | .wordAddress _ _ => none
  | .wordMessage _ => none
  | .wordCodeword _ => none

/-- The part of R216's bound that is the payload phase, the whole of PACK. -/
def payloadBound (mode : Mode) (n : Nat) : Nat :=
  n * unitBits mode + 1 + (n * unitBits mode + 19) / 20 + (15 + (n * unitBits mode + 19) / 20) / 16 + 1

/-- The bound on the steps of one repeat that R216 gives. -/
def repeatBound (mode : Mode) (n : Nat) : Nat :=
  18 + 1 + 14 + 1 +
    payloadBound mode n + 1 + 16 + 1

end Sys2Proof.Machine
end

