-- ==== Sys2Proof/Certificates/Slice0/Obligations.lean ====
section
/-! DEFINITION. The statements for the provers. "R<n>" is the numbered rule of spec/. -/

open Sys2Proof Sys2Proof.Machine

-- ---------------------------------------------------------------- encoding

/-- Decoding the encoding of a well-formed instruction gives it back, every operand at every value (R21, R95, R97).
Only a repeat operand too wide for REP_W, an address word that has the value of a fixed word (R99) and the generic
class WORD.CODEWORD are not well-formed; how every codeword reads back is `CodewordsReadBackByValue`. -/
def Obligations.DecodeOfEncodeIsTheInstruction : Prop :=
  ∀ (p : Config.Params) (i : Instr), i.wellFormed p = true → decode (encode i) = i

/-- The bits of the rows of spec/opcode_table.json, written out from it, decode to the rows' instructions, but for the row
WORD.CODEWORD (see `CodewordsReadBackByValue`); the address word and the message word come from 95_test_vectors.md section
3.4. That 8 bits are a request with OP in bits 3:0 and every other operand 0, and that the decoder refuses a value wider
than the selector or a word, are the model's choice (log 2). -/
def Obligations.TableRowsDecode : Prop :=
  decodeTableWord 8 0x1 = some (.crc10 0) ∧ decodeTableWord 8 0x2 = some (.par32 0) ∧
  decodeTableWord 8 0x3 = some (.encw 0) ∧ decodeTableWord 8 0x4 = some (.aoff 0) ∧
  decodeTableWord 8 0x5 = some (.addrw 0 0) ∧ decodeTableWord 8 0x6 = some (.msgw 0) ∧
  decodeTableWord 8 0x7 = some (.numd 0) ∧ decodeTableWord 8 0x8 = some (.pack .text 0 0) ∧
  decodeTableWord 8 0x9 = some (.tx1 0 0 0 .text 0) ∧ decodeTableWord 8 0xA = some (.txr 0 0 0 .text 0) ∧
  decodeTableWord 8 0xB = some (.len 0 0 .text 0) ∧ decodeTableWord 8 0x0 = some .reserved0 ∧
  decodeTableWord 8 0xC = some .reservedC ∧ decodeTableWord 8 0xD = some .reservedD ∧
  decodeTableWord 8 0xE = some .reservedE ∧ decodeTableWord 8 0xF = some .reservedF ∧
  decodeTableWord 32 0xAAAAAAAA = some .wordPreamble ∧ decodeTableWord 32 0x7CD215D8 = some .wordSync ∧
  decodeTableWord 32 0x7A89C197 = some .wordIdle ∧
  decodeTableWord 32 0x00135E3F = some (.wordAddress 0x9A 3) ∧
  decodeTableWord 32 0xC18407FC = some (.wordMessage 0x83080) ∧
  decodeTableWord 8 0x10 = none ∧ decodeTableWord 32 0x100000000 = none

/-- The selector of a request names its operation, and the operation reads just its own operands (R95). -/
def Obligations.SelectorNamesOperation : Prop :=
  ∀ r : Request,
    (r.op = 0x0#4 → decodeRequest r = .reserved0) ∧ (r.op = 0x1#4 → decodeRequest r = .crc10 r.data) ∧
    (r.op = 0x2#4 → decodeRequest r = .par32 r.x) ∧ (r.op = 0x3#4 → decodeRequest r = .encw r.data) ∧
    (r.op = 0x4#4 → decodeRequest r = .aoff r.address) ∧ (r.op = 0x5#4 → decodeRequest r = .addrw r.address r.fb) ∧
    (r.op = 0x6#4 → decodeRequest r = .msgw r.group) ∧ (r.op = 0x7#4 → decodeRequest r = .numd r.ch) ∧
    (r.op = 0x8#4 → decodeRequest r = .pack (modeOfBit r.mode) r.start r.n) ∧
    (r.op = 0x9#4 → decodeRequest r = .tx1 r.repidx r.address r.fb (modeOfBit r.mode) r.n) ∧
    (r.op = 0xA#4 → decodeRequest r = .txr r.repcnt r.address r.fb (modeOfBit r.mode) r.n) ∧
    (r.op = 0xB#4 → decodeRequest r = .len r.repidx r.address (modeOfBit r.mode) r.n) ∧
    (r.op = 0xC#4 → decodeRequest r = .reservedC) ∧ (r.op = 0xD#4 → decodeRequest r = .reservedD) ∧
    (r.op = 0xE#4 → decodeRequest r = .reservedE) ∧ (r.op = 0xF#4 → decodeRequest r = .reservedF)

/-- How every codeword reads back by value: the two fixed ones by name, the others by the role flag with their fields
(R81 to R83, R94); none reads as the preamble word. Reading by value is the model's own, by inference (DEDUCED, log 3): a
codeword with the value of SYNC or IDLE reads as WORD.SYNC or WORD.IDLE wherever it stands, where R97 goes by position,
and WORD.CODEWORD is never the answer. -/
def Obligations.CodewordsReadBackByValue : Prop :=
  ∀ d : BitVec 21,
    decode (encode (.wordCodeword d)) =
      if d = 0x0F9A42#21 then .wordSync
      else if d = 0x0F5138#21 then .wordIdle
      else if d.getLsbD 20 then .wordMessage (d.extractLsb' 0 20)
      else .wordAddress (d.extractLsb' 2 18) (d.extractLsb' 0 2)

/-- The fixed words: SYNC and IDLE are codewords with the fields R87 gives, the preamble word is no codeword and has
even parity (R88). The spec marks both rules as derived. -/
def Obligations.FixedWordsAndTheCode : Prop :=
  encodeCodeword 0x0F9A42#21 = 0x7CD215D8#32 ∧ crc 0x0F9A42#21 = 0x2EC#10 ∧
  encodeCodeword 0x0F5138#21 = 0x7A89C197#32 ∧ crc 0x0F5138#21 = 0x0CB#10 ∧
  encodeCodeword 0x155555#21 = 0xAAAAAF1B#32 ∧
  (∀ d : BitVec 21, encodeCodeword d ≠ 0xAAAAAAAA#32) ∧ parity 0xAAAAAAAA#32 = false

/-- The (address, function bits) pairs whose codeword has the value of SYNC or IDLE are exactly the sixteen of R99;
the block encodes them as they stand; no message codeword has either value. The spec marks R99 as derived. -/
def Obligations.SharedWordsAreTheSixteen : Prop :=
  ∀ (a : BitVec 21) (fb : BitVec 2) (g : BitVec 20) (s : State), s.ph.idle = true →
    (addressWord a fb = syncWord ↔ fb = 2#2 ∧ 0x1F3480#21 ≤ a ∧ a ≤ 0x1F3487#21) ∧
    (addressWord a fb = idleWord ↔ fb = 0#2 ∧ 0x1EA270#21 ≤ a ∧ a ≤ 0x1EA277#21) ∧
    exec (.addrw a fb) s = .next (afterScalar (addressWord a fb).toNat s) ∧
    messageWord g ≠ syncWord ∧ messageWord g ≠ idleWord

-- ---------------------------------------------------------------- CRC, parity, codewords

/-- `polymod(v)` is the remainder of `v` divided by the generator over GF(2): the one 10-bit value that differs from
`v` by a multiple of the generator (R110). -/
def Obligations.PolymodIsTheRemainder : Prop :=
  ∀ (v : BitVec 31) (r : BitVec 10), polymod v = r ↔ ∃ q : BitVec 21, v = generatorMultiple q ^^^ r.setWidth 31

/-- The syndrome law (R113), for the 31-bit value and for the whole codeword. -/
def Obligations.SyndromeOfEveryCodewordIsZero : Prop :=
  ∀ d : BitVec 21,
    polymod ((d.setWidth 31 <<< 10) ||| (crc d).setWidth 31) = 0 ∧ syndrome (encodeCodeword d) = 0

/-- `polymod` and `crc` are linear (R114), and `crc` is the sum of R115's table over the set bits. The spec marks both
rules as derived. -/
def Obligations.CrcIsLinearWithItsTable : Prop :=
  (∀ a b : BitVec 31, polymod (a ^^^ b) = polymod a ^^^ polymod b) ∧
  (∀ a b : BitVec 21, crc (a ^^^ b) = crc a ^^^ crc b) ∧
  (∀ i < 21, crc (1#21 <<< i) = crcTable.getD i 0) ∧
  (∀ d : BitVec 21, crc d = tableSum crcTable d 21)

/-- Every codeword has even weight (R131). -/
def Obligations.CodewordsHaveEvenWeight : Prop :=
  ∀ d : BitVec 21, parity (encodeCodeword d) = false ∧ onesCount (encodeCodeword d) 32 % 2 = 0

/-- The layout of a codeword (R81): data in 31:11, so the role flag in bit 31, crc in 10:1, the parity of the
31 bits in bit 0. -/
def Obligations.CodewordFields : Prop :=
  ∀ d : BitVec 21,
    (encodeCodeword d).extractLsb' 11 21 = d ∧ (encodeCodeword d).getLsbD 31 = d.getLsbD 20 ∧
    (encodeCodeword d).extractLsb' 1 10 = crc d ∧
    (encodeCodeword d).getLsbD 0 = parity ((d ++ crc d).setWidth 32)

/-- The encoder is injective and linear (R132, which the spec marks as derived). -/
def Obligations.EncoderInjectiveAndLinear : Prop :=
  (∀ a b : BitVec 21, encodeCodeword a = encodeCodeword b → a = b) ∧
  (∀ a b : BitVec 21, encodeCodeword (a ^^^ b) = encodeCodeword a ^^^ encodeCodeword b)

-- ---------------------------------------------------------------- scalar operations

/-- CRC10 (R111): RES is the remainder of `data << 10`; the corner cases; everything but the status and RES stays. -/
def Obligations.Crc10Result : Prop :=
  (∀ (s : State) (d : BitVec 21), s.ph.idle = true →
    exec (.crc10 d) s = .next (afterScalar (polymod (d.setWidth 31 <<< 10)).toNat s)) ∧
  (∀ s : State, s.ph.idle = true →
    exec (.crc10 0) s = .next (afterScalar 0 s) ∧ exec (.crc10 0x1FFFFF) s = .next (afterScalar 0x3FF s) ∧
    exec (.crc10 1) s = .next (afterScalar 0x369 s))

/-- PAR32 (R112): RES is 1 when X has an odd number of one bits, else 0; everything but the status and RES stays. -/
def Obligations.Par32Result : Prop :=
  ∀ (s : State) (x : BitVec 32), s.ph.idle = true →
    exec (.par32 x) s = .next (afterScalar (onesCount x 32 % 2) s)

/-- ENCW (R130): RES is `data`, then `crc(data)`, then the parity of the two; the corner cases; everything but the
status and RES stays. -/
def Obligations.EncwResult : Prop :=
  (∀ (s : State) (d : BitVec 21), s.ph.idle = true →
    exec (.encw d) s =
      .next (afterScalar (d.toNat * 2048 + (crc d).toNat * 2 + (onesCount d 21 + onesCount (crc d) 10) % 2) s)) ∧
  (∀ s : State, s.ph.idle = true →
    exec (.encw 0) s = .next (afterScalar 0 s) ∧ exec (.encw 0x1FFFFF) s = .next (afterScalar 0xFFFFFFFF s) ∧
    exec (.encw 0x100000) s = .next (afterScalar 0x80000769 s) ∧
    exec (.encw 1) s = .next (afterScalar 0xED3 s) ∧ exec (.encw 0x0F5138) s = .next (afterScalar 0x7A89C197 s))

/-- AOFF (R133): RES is `(address mod 8) * 2`, one of 0, 2, .., 14; everything but the status and RES stays. -/
def Obligations.AoffResult : Prop :=
  ∀ (s : State) (a : BitVec 21), s.ph.idle = true →
    exec (.aoff a) s = .next (afterScalar (a.toNat % 8 * 2) s) ∧ a.toNat % 8 * 2 ∈ [0, 2, 4, 6, 8, 10, 12, 14]

/-- ADDRW (R134): RES is the codeword of `((address >> 3) << 2) | fb`, with bit 31 clear; the low three address bits do
not matter; the corner cases; everything but the status and RES stays. -/
def Obligations.AddrwResult : Prop :=
  (∀ (s : State) (a : BitVec 21) (fb : BitVec 2), s.ph.idle = true →
    exec (.addrw a fb) s =
      .next (afterScalar (encodeCodeword (BitVec.ofNat 21 (a.toNat / 8 * 4 + fb.toNat))).toNat s) ∧
    (encodeCodeword (BitVec.ofNat 21 (a.toNat / 8 * 4 + fb.toNat))).getLsbD 31 = false) ∧
  (∀ (s : State) (a b : BitVec 21) (fb : BitVec 2), a.toNat / 8 = b.toNat / 8 →
    exec (.addrw a fb) s = exec (.addrw b fb) s) ∧
  (∀ s : State, s.ph.idle = true →
    exec (.addrw 7 0) s = .next (afterScalar 0 s) ∧ exec (.addrw 8 0) s = .next (afterScalar 0x26EC s) ∧
    exec (.addrw 0x1FFFFF 3) s = .next (afterScalar 0x7FFFF896 s) ∧
    exec (.addrw 1234 3) s = .next (afterScalar 0x135E3F s) ∧
    exec (.addrw 0x1F3480 2) s = .next (afterScalar 0x7CD215D8 s) ∧
    exec (.addrw 0x1EA270 0) s = .next (afterScalar 0x7A89C197 s))

/-- MSGW (R135): RES is the codeword of `0x100000 | group`, with bit 31 set; the corner cases; everything but the status
and RES stays. -/
def Obligations.MsgwResult : Prop :=
  (∀ (s : State) (g : BitVec 20), s.ph.idle = true →
    exec (.msgw g) s = .next (afterScalar (encodeCodeword (BitVec.ofNat 21 (0x100000 + g.toNat))).toNat s) ∧
    (encodeCodeword (BitVec.ofNat 21 (0x100000 + g.toNat))).getLsbD 31 = true) ∧
  (∀ s : State, s.ph.idle = true →
    exec (.msgw 0) s = .next (afterScalar 0x80000769 s) ∧
    exec (.msgw 0xFFFFF) s = .next (afterScalar 0xFFFFFFFF s) ∧
    exec (.msgw 0x83080) s = .next (afterScalar 0xC18407FC s))

/-- NUMD (R152 to R155): RES is the mirrored code of the character; '0' and '9' give 0 and 9 in every instance, the
other digits the mirror of the instance's table entry, with the spec's default table 8, 4, C, 2, A, 6, E, 1; everything
but the status and RES stays. -/
def Obligations.NumdResult : Prop :=
  (∀ s : State, s.ph.idle = true →
    s.params.digit1 = 1 → s.params.digit2 = 2 → s.params.digit3 = 3 → s.params.digit4 = 4 →
    s.params.digit5 = 5 → s.params.digit6 = 6 → s.params.digit7 = 7 → s.params.digit8 = 8 →
    exec (.numd 0x31) s = .next (afterScalar 0x8 s) ∧ exec (.numd 0x32) s = .next (afterScalar 0x4 s) ∧
    exec (.numd 0x33) s = .next (afterScalar 0xC s) ∧ exec (.numd 0x34) s = .next (afterScalar 0x2 s) ∧
    exec (.numd 0x35) s = .next (afterScalar 0xA s) ∧ exec (.numd 0x36) s = .next (afterScalar 0x6 s) ∧
    exec (.numd 0x37) s = .next (afterScalar 0xE s) ∧ exec (.numd 0x38) s = .next (afterScalar 0x1 s)) ∧
  ∀ (s : State) (c : Byte), s.ph.idle = true →
    ∃ v, exec (.numd c) s = .next (afterScalar v s) ∧
      (c = 0x30 → v = 0x0) ∧ (c = 0x31 → v = mirror4 s.params.digit1) ∧ (c = 0x32 → v = mirror4 s.params.digit2) ∧
      (c = 0x33 → v = mirror4 s.params.digit3) ∧ (c = 0x34 → v = mirror4 s.params.digit4) ∧
      (c = 0x35 → v = mirror4 s.params.digit5) ∧ (c = 0x36 → v = mirror4 s.params.digit6) ∧
      (c = 0x37 → v = mirror4 s.params.digit7) ∧ (c = 0x38 → v = mirror4 s.params.digit8) ∧
      (c = 0x39 → v = 0x9) ∧ (c = 0x20 → v = 0xC) ∧ (c = 0x75 ∨ c = 0x55 → v = 0xB) ∧
      (c = 0x2D ∨ c = 0x5F → v = 0xD) ∧ (c = 0x28 ∨ c = 0x5B → v = 0xF) ∧ (c = 0x29 ∨ c = 0x5D → v = 0xE) ∧
      ((c < 0x30 ∨ 0x39 < c) → c ∉ [0x20#8, 0x75#8, 0x55#8, 0x2D#8, 0x5F#8, 0x28#8, 0x5B#8, 0x29#8, 0x5D#8] →
        v = 0xA)

/-- LEN (R220, R222): RES is the estimator's formula, line by line; everything but the status and RES stays; a message
length above MAX_MSG_LEN is refused with ERR 2. -/
def Obligations.LenResult : Prop :=
  ∀ (s : State) (repidx : Nat) (a : BitVec 21) (mode : Mode) (n : Nat), s.ph.idle = true →
    let bitsPerUnit := if mode = .text then 7 else 4
    let words := a.toNat % 8 * 2 + 1 + (n * bitsPerUnit + 19) / 20 + 1
    let padded := words + (16 - words % 16) % 16
    let withSync := padded + padded / 16
    ((∀ m, s.params.maxMsgLen = some m → n ≤ m) →
      exec (.len repidx a mode n) s =
        .next (afterScalar (if repidx = 0 then withSync + 18 else withSync) s)) ∧
    ((∃ m, s.params.maxMsgLen = some m ∧ m < n) →
      ∃ v, exec (.len repidx a mode n) s = .next (afterRefusal 2 v s))

/-- The closed form of LEN (R227) and the bound on it (R229), which the spec marks as derived. -/
def Obligations.LenClosedForm : Prop :=
  (∀ (repidx : Nat) (a : BitVec 21) (mode : Mode) (n : Nat),
    lengthOf repidx a n mode =
      17 * ((a.toNat % 8 * 2 + 1 + (n * unitBits mode + 19) / 20) / 16 + 1) + if repidx = 0 then 18 else 0) ∧
  (∀ (repidx : Nat) (a : BitVec 21) (mode : Mode) (n m : Nat), n ≤ m →
    17 ≤ lengthOf repidx a n mode ∧ lengthOf repidx a n mode ≤ 18 + 17 * ((15 + (7 * m + 19) / 20) / 16 + 1))

-- ---------------------------------------------------------------- the payload at Level F

/-- Text groups (R84): bit `6 - b` of character `c` is payload bit `7c + b`, which stands in bit `30 - (7c + b) mod 20`
of message codeword `(7c + b) / 20`; the unused positions of the last group are 0. -/
def Obligations.TextGroupLayout : Prop :=
  ∀ (p : Config.Params) (msg : List Byte),
    (∀ c b, c < msg.length → b < 7 →
      ((payloadWords p .text msg).getD ((7 * c + b) / 20) 0).getLsbD (30 - (7 * c + b) % 20) =
        (msg.getD c 0).getLsbD (6 - b)) ∧
    (∀ q, 7 * msg.length ≤ q → q / 20 < (payloadWords p .text msg).length →
      ((payloadWords p .text msg).getD (q / 20) 0).getLsbD (30 - q % 20) = false)

/-- Numeric groups (R85): character `5g + k` is word bits `30-4k .. 27-4k` of message codeword `g`, its reversed code
most significant bit first; unused fields of the last group are 0. -/
def Obligations.NumericGroupLayout : Prop :=
  ∀ (p : Config.Params) (msg : List Byte) (g k : Nat), k < 5 →
    (5 * g + k < msg.length →
      ((payloadWords p .numeric msg).getD g 0).extractLsb' (27 - 4 * k) 4 =
        rev4 (numCode p (msg.getD (5 * g + k) 0))) ∧
    (msg.length ≤ 5 * g + k → g < (payloadWords p .numeric msg).length →
      ((payloadWords p .numeric msg).getD g 0).extractLsb' (27 - 4 * k) 4 = 0#4)

/-- The number of message codewords (R160): `ceil(7N / 20)` in text, `ceil(N / 5)` in numeric mode. -/
def Obligations.GroupCount : Prop :=
  ∀ (p : Config.Params) (msg : List Byte),
    (payloadWords p .text msg).length = (7 * msg.length + 19) / 20 ∧
    (payloadWords p .numeric msg).length = (4 * msg.length + 19) / 20 ∧
    (payloadWords p .numeric msg).length = (msg.length + 4) / 5

/-- Where the injector puts Syncs (R184, which the spec marks as derived): `(s + G) / 16` of them, message codeword `k`
after `(s + k) / 16` of them, and one right after the codeword that fills slot 15. -/
def Obligations.InjectedSyncPositions : Prop :=
  ∀ (s : Nat) (ws : List Word), s ≤ 15 →
    (inject s ws).length = ws.length + (s + ws.length) / 16 ∧
    (∀ k < ws.length, (inject s ws)[k + (s + k) / 16]? = ws[k]?) ∧
    (∀ k, 1 ≤ k → k ≤ ws.length → (s + k) % 16 = 0 → (inject s ws)[k + (s + k) / 16 - 1]? = some syncWord)

-- ---------------------------------------------------------------- the stream operations start

/-- PACK starts (R183, R262): the packer's registers, OUT empty (R52), phase PAYLOAD; the registers it does not use, MSG
and everything else stay. That OUT is a list of its own that loses the words of an earlier operation (log 9), and that RES
keeps its value while the operation runs (log 7), are the model's choice. -/
def Obligations.PackStarts : Prop :=
  ∀ (s : State) (mode : Mode) (start : BitVec 4) (n : Nat), s.ph.idle = true → tooLong s.params n = false →
    exec (.pack mode start n) s = .next
      { s with
        ph := .payload, done := false, err := 0, outp := 0, out := [],
        req := { s.req with op := 0x8#4, mode := if mode = .text then 0 else 1, start := start, n := n },
        work := { s.work with wpos := start, acc := 0, nb := 0, sp := false, ci := 0, bi := 0 } }

/-- TX1 and TXR start (R206): OUT empty (R52), REPI and REND, then phase PRE with K at 0 for repeat index 0, else SYNC0;
everything else stays. TXR with REPCNT = 0 is over at once, OUT empty. The model's choice: OUT loses the words of an earlier
operation (log 9), RES keeps its value while the operation runs (log 7), and once it is over the working registers and RES
hold free values (log 5, log 7). -/
def Obligations.ComposerStarts : Prop :=
  ∀ (s : State) (rep : Nat) (a : BitVec 21) (fb : BitVec 2) (mode : Mode) (n : Nat),
    s.ph.idle = true → tooLong s.params n = false →
    let req1 := { s.req with op := 0x9#4, repidx := rep, address := a, fb := fb,
                             mode := if mode = .text then 0 else 1, n := n }
    let reqR := { s.req with op := 0xA#4, repcnt := rep, address := a, fb := fb,
                             mode := if mode = .text then 0 else 1, n := n }
    (rep = 0 → exec (.tx1 rep a fb mode n) s = .next
      { s with
        ph := .pre, done := false, err := 0, outp := 0, out := [], req := req1,
        work := { s.work with repi := 0, rend := 1, k := 0 } }) ∧
    (0 < rep → exec (.tx1 rep a fb mode n) s = .next
      { s with
        ph := .sync0, done := false, err := 0, outp := 0, out := [], req := req1,
        work := { s.work with repi := rep, rend := rep + 1 } }) ∧
    (0 < rep → exec (.txr rep a fb mode n) s = .next
      { s with
        ph := .pre, done := false, err := 0, outp := 0, out := [], req := reqR,
        work := { s.work with repi := 0, rend := rep, k := 0 } }) ∧
    (rep = 0 → ∃ w v, exec (.txr rep a fb mode n) s = .next
      { s with
        ph := .done, done := true, err := 0, outp := 0, out := [], req := reqR, work := w, res := v,
        free := s.free + 1 })

-- ---------------------------------------------------------------- the sequencer's steps

/-- Phase PRE (R207): WORD.PREAMBLE appends the preamble word and counts K; everything else, CNT too, stays. From K = 0
eighteen steps append eighteen words and end in SYNC0. -/
def Obligations.PreamblePhase : Prop :=
  (∀ s : State, s.ph = .pre →
    exec .wordPreamble s = .next
      { s with
        ph := if s.work.k + 1 = 18#5 then .sync0 else .pre,
        out := s.out ++ [0xAAAAAAAA#32], outp := s.outp + 1,
        work := { s.work with k := s.work.k + 1 } }) ∧
  (∀ s : State, s.ph = .pre → s.port = none → s.work.k = 0#5 →
    stepN 18 s = .next
      { s with
        ph := .sync0, out := s.out ++ List.replicate 18 0xAAAAAAAA#32, outp := s.outp + 18,
        work := { s.work with k := 18 } })

/-- Phase SYNC0 (R208): WORD.SYNC appends SYNC, sets CNT to 1 and K to 0; everything else stays. -/
def Obligations.BatchStartSync : Prop :=
  ∀ s : State, s.ph = .sync0 →
    exec .wordSync s = .next
      { s with
        ph := if s.req.address.toNat % 8 * 2 > 0 then .idlePrefix else .addr,
        out := s.out ++ [0x7CD215D8#32], outp := s.outp + 1,
        work := { s.work with cnt := 1, k := 0 } }

/-- Phase PREFIX (R209): WORD.IDLE appends IDLE, counts it and K; everything else stays. From K = 0 it takes `aoff`
steps, where `aoff` is not 0. -/
def Obligations.IdlePrefixPhase : Prop :=
  (∀ s : State, s.ph = .idlePrefix →
    exec .wordIdle s = .next
      { s with
        ph := if (s.work.k + 1).toNat = s.req.address.toNat % 8 * 2 then .addr else .idlePrefix,
        out := s.out ++ [0x7A89C197#32], outp := s.outp + 1,
        work := { s.work with k := s.work.k + 1, cnt := BitVec.ofNat 5 ((s.work.cnt.toNat + 1) % 17) } }) ∧
  (∀ s : State, s.ph = .idlePrefix → s.port = none → s.work.k = 0#5 → s.req.address.toNat % 8 ≠ 0 →
    ∃ t, stepN (s.req.address.toNat % 8 * 2) s = .next t ∧ t.ph = .addr ∧
      t.out = s.out ++ List.replicate (s.req.address.toNat % 8 * 2) 0x7A89C197#32)

/-- Phase ADDR (R210): WORD.ADDRESS, with the latched address and function bits, appends the address codeword and
initialises the payload encoder's registers; everything else stays. -/
def Obligations.AddressPhase : Prop :=
  ∀ s : State, s.ph = .addr →
    exec (.wordAddress (s.req.address.extractLsb' 3 18) s.req.fb) s = .next
      { s with
        ph := .payload,
        out := s.out ++ [encodeCodeword (BitVec.ofNat 21 (s.req.address.toNat / 8 * 4 + s.req.fb.toNat))],
        outp := s.outp + 1,
        work := { s.work with
          cnt := BitVec.ofNat 5 ((s.work.cnt.toNat + 1) % 17),
          wpos := BitVec.ofNat 4 (s.req.address.toNat % 8 * 2 + 1),
          acc := 0, nb := 0, sp := false, ci := 0, bi := 0 } }

/-- Phase PAYLOAD, first priority (R181, R211): while SP is set WORD.SYNC appends SYNC and clears SP; CNT counts it but
in PACK; everything else stays. -/
def Obligations.PendingSyncFirst : Prop :=
  ∀ s : State, s.ph = .payload → s.work.sp = true →
    exec .wordSync s = .next
      { s with
        out := s.out ++ [0x7CD215D8#32], outp := s.outp + 1,
        work := { s.work with
          sp := false,
          cnt := if s.req.op = 0x8#4 then s.work.cnt else BitVec.ofNat 5 ((s.work.cnt.toNat + 1) % 17) } }

/-- The flush step (R157, R181): with 20 bits accumulated and no Sync pending WORD.MESSAGE appends the codeword of the
group, clears ACC and NB, and counts the slot: from 15 WPOS wraps to 0 and SP is set; everything else stays. -/
def Obligations.FlushStep : Prop :=
  ∀ s : State, s.ph = .payload → s.work.sp = false → s.work.nb = 20#5 →
    exec (.wordMessage s.work.acc) s = .next
      { s with
        out := s.out ++ [encodeCodeword (BitVec.ofNat 21 (0x100000 + s.work.acc.toNat))], outp := s.outp + 1,
        work := { s.work with
          acc := 0, nb := 0,
          wpos := if s.work.wpos = 15#4 then 0 else s.work.wpos + 1,
          sp := decide (s.work.wpos = 15#4),
          cnt := if s.req.op = 0x8#4 then s.work.cnt else BitVec.ofNat 5 ((s.work.cnt.toNat + 1) % 17) } }

/-- The shift step (R156): the next bit of the character, most significant first, enters ACC at bit 0; nothing is
appended; everything else stays. -/
def Obligations.ShiftStep : Prop :=
  ∀ s : State, s.ph = .payload → s.port = none → s.work.sp = false → s.work.nb ≠ 20#5 → s.work.ci < s.req.n →
    let c := Memory.read s.msg s.work.ci
    let b := if s.req.mode = 0#1 then c.getLsbD (6 - s.work.bi.toNat)
      else (rev4 (numCode s.params c)).getLsbD (3 - s.work.bi.toNat)
    let last := if s.req.mode = 0#1 then 6 else 3
    step s = .next
      { s with
        work := { s.work with
          acc := (s.work.acc <<< 1) ||| (if b then 1#20 else 0#20), nb := s.work.nb + 1,
          bi := if s.work.bi.toNat = last then 0 else s.work.bi + 1,
          ci := if s.work.bi.toNat = last then s.work.ci + 1 else s.work.ci } }

/-- The pad step (R158): when the message is used up and ACC holds a partial group, its bits move to the top and zeros
fill the rest; nothing is appended; everything else stays. With no partial group there is no final word: the payload
phase ends. -/
def Obligations.PadStep : Prop :=
  ∀ s : State, s.ph = .payload → s.port = none → s.work.sp = false → s.work.ci = s.req.n →
    (0 < s.work.nb.toNat → s.work.nb.toNat < 20 →
      step s = .next
        { s with
          work := { s.work with
            acc := BitVec.ofNat 20 (s.work.acc.toNat * 2 ^ (20 - s.work.nb.toNat)), nb := 20 } }) ∧
    (s.work.nb = 0#5 → ∃ t, step s = .next t ∧ t.out = s.out ∧ t.outp = s.outp ∧ (t.ph = .term ∨ t.ph = .done))

/-- Phase PAYLOAD, last priority (R211): with nothing left, TX1 and TXR go on to TERM; PACK is over, and its working
registers and RES then hold no value (the model's free values, log 5, log 7). -/
def Obligations.PayloadEnds : Prop :=
  ∀ s : State, s.ph = .payload → s.port = none → s.work.sp = false → s.work.nb = 0#5 → s.req.n ≤ s.work.ci →
    (s.req.op ≠ 0x8#4 → step s = .next { s with ph := .term }) ∧
    (s.req.op = 0x8#4 → ∃ w v, step s = .next
      { s with ph := .done, done := true, work := w, res := v, free := s.free + 1 })

/-- Phase TERM (R212): WORD.IDLE appends the terminator and counts it; everything else stays. -/
def Obligations.TerminatorPhase : Prop :=
  ∀ s : State, s.ph = .term →
    exec .wordIdle s = .next
      { s with
        ph := .pad, out := s.out ++ [0x7A89C197#32], outp := s.outp + 1,
        work := { s.work with cnt := BitVec.ofNat 5 ((s.work.cnt.toNat + 1) % 17) } }

/-- Phase PAD (R213): WORD.IDLE pads while CNT is not 0; at 0 the next repeat starts, without a preamble, or the
operation is over, and its working registers and RES then hold no value (the model's free values, log 5, log 7). -/
def Obligations.PaddingPhase : Prop :=
  (∀ s : State, s.ph = .pad → s.work.cnt ≠ 0#5 →
    exec .wordIdle s = .next
      { s with
        out := s.out ++ [0x7A89C197#32], outp := s.outp + 1,
        work := { s.work with cnt := BitVec.ofNat 5 ((s.work.cnt.toNat + 1) % 17) } }) ∧
  (∀ s : State, s.ph = .pad → s.port = none → s.work.cnt = 0#5 → s.work.repi + 1 ≠ s.work.rend →
    step s = .next { s with ph := .sync0, work := { s.work with repi := s.work.repi + 1 } }) ∧
  (∀ s : State, s.ph = .pad → s.port = none → s.work.cnt = 0#5 → s.work.repi + 1 = s.work.rend →
    ∃ w v, step s = .next { s with ph := .done, done := true, work := w, res := v, free := s.free + 1 })

/-- WORD.CODEWORD, the generic format, stands for the class of the codeword that is due: wherever the sequencer's next
step appends a codeword (R81), running the generic class with that codeword's data is that step, which is the meaning of
the codeword's own class (the model's choice, log 1). -/
def Obligations.GenericCodewordIsTheDueOne : Prop :=
  ∀ s : State,
    (s.ph = .sync0 ∨ (s.ph = .payload ∧ s.work.sp = true) →
      exec (.wordCodeword 0x0F9A42) s = exec .wordSync s ∧ ∃ t, exec (.wordCodeword 0x0F9A42) s = .next t ∧
        t.out = s.out ++ [0x7CD215D8#32] ∧ t.msg = s.msg ∧ t.req = s.req) ∧
    (s.ph = .idlePrefix ∨ s.ph = .term ∨ (s.ph = .pad ∧ s.work.cnt ≠ 0#5) →
      exec (.wordCodeword 0x0F5138) s = exec .wordIdle s ∧ ∃ t, exec (.wordCodeword 0x0F5138) s = .next t ∧
        t.out = s.out ++ [0x7A89C197#32] ∧ t.msg = s.msg ∧ t.req = s.req) ∧
    (s.ph = .addr →
      exec (.wordCodeword (addressData s.req.address s.req.fb)) s =
          exec (.wordAddress (s.req.address.extractLsb' 3 18) s.req.fb) s ∧
        ∃ t, exec (.wordCodeword (addressData s.req.address s.req.fb)) s = .next t ∧
          t.out = s.out ++ [addressWord s.req.address s.req.fb] ∧ t.msg = s.msg ∧ t.req = s.req) ∧
    (s.ph = .payload → s.work.sp = false → s.work.nb = 20#5 →
      exec (.wordCodeword (messageData s.work.acc)) s = exec (.wordMessage s.work.acc) s ∧
        ∃ t, exec (.wordCodeword (messageData s.work.acc)) s = .next t ∧
          t.out = s.out ++ [messageWord s.work.acc] ∧ t.msg = s.msg ∧ t.req = s.req)

/-- A word class that is due, or WORD.CODEWORD with the data of the due codeword, answers a next state in which the word
of its encoding is appended; a word class that is not due stops by name (both the model's choice, log 1). A step of a
running operation appends no other word than that of the class that is due. -/
def Obligations.WordClassAppendsItsWord : Prop :=
  (∀ (i : Instr) (s : State), isRequest i = false →
    ((due s = some i ∨ ∃ d, i = .wordCodeword d ∧ dueCodeword s = some (encodeCodeword d)) →
      ∃ t w, exec i s = .next t ∧ encode i = .word w ∧ t.out = s.out ++ [w] ∧ t.outp = s.outp + 1) ∧
    (due s ≠ some i → (∀ d, i = .wordCodeword d → dueCodeword s ≠ some (encodeCodeword d)) →
      exec i s = .fault .wordNotDue)) ∧
  (∀ (s t : State) (w : Word), s.ph.idle = false → step s = .next t → t.out = s.out ++ [w] →
    ∃ i, due s = some i ∧ encode i = .word w)

-- ---------------------------------------------------------------- requests, refusals, reset

/-- A reserved selector is refused with cause ReservedOp (R239, R240, R242): ERR 1, DONE, OUTP 0; OUT, the working
registers, the operands and MSG stay; RES then holds no value (the model's free value, log 7). -/
def Obligations.ReservedSelectorRefused : Prop :=
  ∀ (s : State) (i : Instr), i ∈ [Instr.reserved0, .reservedC, .reservedD, .reservedE, .reservedF] →
    s.ph.idle = true → ∃ v, exec i s = .next (afterRefusal 1 v s)

/-- A message longer than MAX_MSG_LEN is refused with cause MsgTooLong by the four operations that read N (R239, R242):
nothing is appended; RES then holds no value (the model's free value, log 7). -/
def Obligations.LongMessageRefused : Prop :=
  ∀ (s : State) (m n : Nat) (repidx : Nat) (a : BitVec 21) (fb : BitVec 2) (mode : Mode) (start : BitVec 4)
    (i : Instr),
    i ∈ [Instr.pack mode start n, .tx1 repidx a fb mode n, .txr repidx a fb mode n, .len repidx a mode n] →
    s.ph.idle = true → s.params.maxMsgLen = some m → m < n →
    ∃ v, exec i s = .next (afterRefusal 2 v s)

/-- The selector is examined first (R241): a presented request with a reserved selector is refused with ERR 1, whatever
its N and its other operands, and ERR 2 is reported for the four operations that read N only. -/
def Obligations.SelectorExaminedFirst : Prop :=
  ∀ (s : State) (r : Request), s.ph.idle = true → s.port = some r → r.fits s.params = true →
    (r.op = 0x0#4 ∨ 0xC#4 ≤ r.op →
      ∃ t, step s = .next t ∧ t.err = 1#2 ∧ t.done = true ∧ t.ph = .done ∧ t.outp = 0 ∧ t.out = s.out) ∧
    (∀ t, step s = .next t → t.err = 2#2 → 0x8#4 ≤ r.op ∧ r.op ≤ 0xB#4) ∧
    (∀ t, step s = .next t → t.err = 1#2 → r.op = 0x0#4 ∨ 0xC#4 ≤ r.op)

/-- A request while an operation runs has no meaning (R262): its meaning answers the refusal by name, and so does a step
that finds one on the port (the refusal's name is the model's, log 14). -/
def Obligations.NoRequestWhileRunning : Prop :=
  (∀ (s : State) (i : Instr), s.ph.idle = false → isRequest i = true →
    exec i s = .refused .requestWhileRunning) ∧
  (∀ (s : State) (r : Request), s.ph.idle = false → s.port = some r → step s = .refused .requestWhileRunning)

/-- In READY and DONE with no request presented no step is enabled (R214, R262): the stuck state has the model's name
for it (log 13). -/
def Obligations.NoStepWithoutRequest : Prop :=
  ∀ s : State, s.ph.idle = true → s.port = none → step s = .fault .noStepEnabled

/-- A step runs the decoded instruction: in READY and DONE the presented request, latched (R21, R262); in a running phase
the word class of the word that the sequencer's step appends (R207 to R213). That the request stands on a port of the state
and is taken off it on acceptance (log 4, log 6), and that a step of the sequencer is the running of a word class (log 1),
are the model's choice. -/
def Obligations.StepRunsTheDecodedInstruction : Prop :=
  (∀ (s : State) (r : Request), s.ph.idle = true → s.port = some r → r.fits s.params = true →
    step s = exec (decode (.request r)) { s with req := r, port := none }) ∧
  (∀ (s : State) (i : Instr), s.ph.idle = false → s.port = none → due s = some i → step s = exec i s)

/-- Reset (R37, R260): the values the spec gives after power-on and after the reset input; the reset input leaves MSG and
OUT alone, from every state. -/
def Obligations.ResetValues : Prop :=
  (State.reset.ph = .ready ∧ State.reset.done = false ∧ State.reset.err = 0 ∧ State.reset.res = 0 ∧
    State.reset.outp = 0) ∧
  (∀ s : State, (hostReset s).ph = .ready ∧ (hostReset s).done = false ∧ (hostReset s).err = 0 ∧
    (hostReset s).res = 0 ∧ (hostReset s).outp = 0 ∧ (hostReset s).msg = s.msg ∧ (hostReset s).out = s.out)

-- ---------------------------------------------------------------- whole operations

/-- PACK run to DONE appends exactly its Level F sequence (R183, R215), from every state that accepts it. -/
def Obligations.PackAppendsItsSequence : Prop :=
  ∀ (s : State) (mode : Mode) (start : BitVec 4) (n : Nat),
    s.ph.idle = true → s.port = none → tooLong s.params n = false →
    ∃ t, runsTo (.pack mode start n) s t ∧ t.out = packWords s.params mode start (messageOf s.msg n) ∧
      t.outp = t.out.length ∧ t.done = true ∧ t.err = 0#2 ∧ t.msg = s.msg ∧ t.params = s.params

/-- TX1 run to DONE appends exactly its Level F sequence (R203, R215), from every state that accepts it. -/
def Obligations.Tx1AppendsItsSequence : Prop :=
  ∀ (s : State) (repidx : Nat) (a : BitVec 21) (fb : BitVec 2) (mode : Mode) (n : Nat),
    s.ph.idle = true → s.port = none → tooLong s.params n = false →
    ∃ t, runsTo (.tx1 repidx a fb mode n) s t ∧ t.out = tx1Words s.params repidx a fb mode (messageOf s.msg n) ∧
      t.outp = t.out.length ∧ t.done = true ∧ t.err = 0#2 ∧ t.msg = s.msg ∧ t.params = s.params

/-- TXR run to DONE appends its repeats laid end to end (R204, R215), from every state that accepts it. -/
def Obligations.TxrAppendsItsSequence : Prop :=
  ∀ (s : State) (repcnt : Nat) (a : BitVec 21) (fb : BitVec 2) (mode : Mode) (n : Nat),
    s.ph.idle = true → s.port = none → tooLong s.params n = false →
    ∃ t, runsTo (.txr repcnt a fb mode n) s t ∧ t.out = txrWords s.params repcnt a fb mode (messageOf s.msg n) ∧
      t.outp = t.out.length ∧ t.done = true ∧ t.err = 0#2 ∧ t.msg = s.msg ∧ t.params = s.params

/-- Every stream operation ends within the number of steps R216 gives (which the spec marks as derived): for TX1 and TXR
its bound for each repeat, for PACK the payload part of that bound. The steps are those of the reference sequencer, which
nobody can observe (R9, R273; the model's choice to run it, log 15). -/
def Obligations.StreamOperationsEnd : Prop :=
  ∀ (s : State) (rep : Nat) (a : BitVec 21) (fb : BitVec 2) (mode : Mode) (start : BitVec 4) (n : Nat),
    s.ph.idle = true → s.port = none → tooLong s.params n = false →
    (∃ t, runsWithin (.pack mode start n) s (payloadBound mode n) t) ∧
    (∃ t, runsWithin (.tx1 rep a fb mode n) s (repeatBound mode n) t) ∧
    (∃ t, runsWithin (.txr rep a fb mode n) s (rep * repeatBound mode n) t)

/-- The estimator equals the assembler (R226): LEN is the number of words TX1 appends. -/
def Obligations.LenIsTheLengthOfTx1 : Prop :=
  ∀ (p : Config.Params) (repidx : Nat) (a : BitVec 21) (fb : BitVec 2) (mode : Mode) (msg : List Byte),
    lengthOf repidx a msg.length mode = (tx1Words p repidx a fb mode msg).length

/-- The map of OUT for one repeat (R59, which the spec marks as derived): the preamble, then at position `j` from the
first Sync the word `mapWord` gives, and a multiple of 17 words from the first Sync. -/
def Obligations.MapOfOneRepeat : Prop :=
  ∀ (p : Config.Params) (repidx : Nat) (a : BitVec 21) (fb : BitVec 2) (mode : Mode) (msg : List Byte),
    (∀ k < preambleLength repidx, (tx1Words p repidx a fb mode msg)[k]? = some preambleWord) ∧
    (∀ j, preambleLength repidx + j < (tx1Words p repidx a fb mode msg).length →
      (tx1Words p repidx a fb mode msg)[preambleLength repidx + j]? =
        some (mapWord a fb (payloadWords p mode msg) j)) ∧
    ((tx1Words p repidx a fb mode msg).length - preambleLength repidx) % 17 = 0

/-- The map of OUT for a sequence of repeats (R60) and its length (R228), which the spec marks as derived: only the first
repeat has a preamble, and a Sync stands at every index `18 + 17m`. -/
def Obligations.MapOfRepeats : Prop :=
  ∀ (p : Config.Params) (repcnt : Nat) (a : BitVec 21) (fb : BitVec 2) (mode : Mode) (msg : List Byte),
    (0 < repcnt → (txrWords p repcnt a fb mode msg).length = 18 + repcnt * lengthOf 1 a msg.length mode ∧
      (txrWords p repcnt a fb mode msg).take 18 = List.replicate 18 preambleWord) ∧
    (repcnt = 0 → txrWords p repcnt a fb mode msg = []) ∧
    (∀ m, 18 + 17 * m < (txrWords p repcnt a fb mode msg).length →
      (txrWords p repcnt a fb mode msg)[18 + 17 * m]? = some syncWord)

-- ---------------------------------------------------------------- the whole machine

/-- While an operation runs every step is enabled, appends at most one word, never changes a word already appended, and
leaves MSG, the operands, ERR, the port and the parameters alone (R52, R67, R273), and until it ends RES too (the model's
choice, log 7). -/
def Obligations.RunningStepFrame : Prop :=
  ∀ s : State, s.ph.idle = false → s.port = none →
    ∃ t, step s = .next t ∧
      ((t.out = s.out ∧ t.outp = s.outp) ∨ ∃ w, t.out = s.out ++ [w] ∧ t.outp = s.outp + 1) ∧
      t.msg = s.msg ∧ t.req = s.req ∧ t.err = s.err ∧ t.port = s.port ∧ t.params = s.params ∧
      (t.ph ≠ .done → t.res = s.res ∧ t.done = s.done ∧ t.free = s.free)

/-- Every word the block appends has even parity (R62), in every state. -/
def Obligations.EmittedWordsHaveEvenParity : Prop :=
  ∀ (s t : State) (w : Word), s.ph.idle = false → step s = .next t → t.out = s.out ++ [w] → parity w = false

/-- Every step, from every state that meets the invariant, ends in one that meets it; so does every move of the host. -/
def Obligations.EveryStepKeepsTheInvariant : Prop :=
  (∀ s t : State, BlockInv s → step s = .next t → BlockInv t) ∧
  (∀ s : State, BlockInv s → BlockInv (hostReset s)) ∧
  (∀ (s t : State) (r : Request), BlockInv s → hostPresent r s = .next t → BlockInv t) ∧
  (∀ (s t : State) (j : Nat) (c : Byte), BlockInv s → hostWriteMsg j c s = .next t → BlockInv t)

/-- The invariant holds after reset. -/
def Obligations.ResetMeetsTheInvariant : Prop := BlockInv State.reset

/-- No state carries meaning from one operation to the next (R20, R218): whatever the status, the working registers, the
old operands and OUT held, a request ends with the same ERR, OUTP and result in any two states with the same parameters
and the same message. -/
def Obligations.NoStateCarriesOver : Prop :=
  ∀ (i : Instr) (s₁ s₂ t₁ t₂ : State),
    s₁.port = none → s₂.port = none → s₁.params = s₂.params →
    (∀ n, messageRead i = some n → ∀ j < n, Memory.read s₁.msg j = Memory.read s₂.msg j) →
    isRequest i = true → runsTo i s₁ t₁ → runsTo i s₂ t₂ →
    t₁.err = t₂.err ∧ t₁.outp = t₂.outp ∧
      (t₁.err = 0#2 → if (messageRead i).isSome then t₁.out = t₂.out else t₁.res = t₂.res)

/-- MSG (R51): a character written reads back, every other stays, a write keeps the canonical form, and two canonical
memories that read alike are equal (the model's form, log 8). -/
def Obligations.MessageSpaceLaws : Prop :=
  (∀ (m : Memory) (i : Nat) (c : Byte), m.wf = true → (Memory.write m i c).wf = true) ∧
  (∀ (m : Memory) (i j : Nat) (c : Byte), m.wf = true →
    Memory.read (Memory.write m i c) j = if j = i then c else Memory.read m j) ∧
  (∀ m m' : Memory, m.wf = true → m'.wf = true → (∀ i, Memory.read m i = Memory.read m' i) → m = m')
end

