-- ==== Sys2Proof/Laws/Host.lean ====
section
/-! SUPPORT. What a host that reads OUT as bytes sees. -/

namespace Sys2Proof.Machine

/-- Whatever the byte order, each of the four bytes of a word is read once. -/
theorem bytePositions_perm (o : Config.ByteOrder) : (bytePositions o).Perm [0, 1, 2, 3] := by
  obtain ⟨a, b, c⟩ := o
  revert a b c
  decide

/-- Different byte orders read the bytes in different orders, so the 24 of them are all there are. -/
theorem bytePositions_injective : Function.Injective bytePositions := by
  rintro ⟨a, b, c⟩ ⟨a', b', c'⟩
  revert a b c a' b' c'
  decide +kernel

@[simp] theorem wordBytes_length (o : Config.ByteOrder) (w : Word) : (wordBytes o w).length = 4 := by
  simp [wordBytes, (bytePositions_perm o).length_eq]

/-- A host that reads bytes sees four per word of OUT. -/
@[simp] theorem hostReadBytes_length (s : State) : (hostReadBytes s).length = 4 * s.out.length := by
  simp [hostReadBytes, List.length_flatMap, Nat.mul_comm]

/-- A word appended to OUT adds its four bytes at the end and changes none that stands (R52). -/
theorem hostReadBytes_emit (w : Word) (s : State) :
    hostReadBytes (emit w s) = hostReadBytes s ++ wordBytes s.params.outByteOrder w := by
  simp [hostReadBytes, emit]

end Sys2Proof.Machine
end

