-- ==== Sys2Proof/Laws/Memory.lean ====
section
/-! SUPPORT. Every operation on MSG keeps the canonical form. -/

namespace Sys2Proof.Machine

theorem wfFrom_cons {lo a : Nat} {b : Byte} {m : Memory} :
    Memory.wfFrom lo ((a, b) :: m) = true ↔ lo ≤ a ∧ b ≠ unwrittenChar ∧ Memory.wfFrom (a + 1) m = true := by
  simp [Memory.wfFrom]

theorem wfFrom_mono {m : Memory} {lo lo' : Nat} (h : lo ≤ lo') (hm : Memory.wfFrom lo' m = true) :
    Memory.wfFrom lo m = true := by
  cases m with
  | nil => rfl
  | cons c m => exact wfFrom_cons.mpr ⟨le_trans h (wfFrom_cons.mp hm).1, (wfFrom_cons.mp hm).2⟩

theorem wfFrom_write {m : Memory} {lo i : Nat} {v : Byte} (hi : lo ≤ i) (hm : Memory.wfFrom lo m = true) :
    Memory.wfFrom lo (Memory.write m i v) = true := by
  induction m generalizing lo with
  | nil => by_cases hv : v = unwrittenChar <;> simp [Memory.write, hv, Memory.wfFrom, hi]
  | cons c m ih =>
    obtain ⟨a, b⟩ := c
    obtain ⟨hla, hb, hrest⟩ := wfFrom_cons.mp hm
    by_cases hlt : i < a
    · by_cases hv : v = unwrittenChar
      · simpa [Memory.write, hlt, hv] using hm
      · simp only [Memory.write, hlt, hv, if_true, if_false]
        exact wfFrom_cons.mpr ⟨hi, hv, wfFrom_cons.mpr ⟨hlt, hb, hrest⟩⟩
    · by_cases heq : i = a
      · subst heq
        by_cases hv : v = unwrittenChar
        · simp only [Memory.write, hv, Nat.lt_irrefl, if_true, if_false]
          exact wfFrom_mono (Nat.le_succ_of_le hla) hrest
        · simp only [Memory.write, hv, Nat.lt_irrefl, if_true, if_false]
          exact wfFrom_cons.mpr ⟨hi, hv, hrest⟩
      · simp only [Memory.write, hlt, heq, if_false]
        exact wfFrom_cons.mpr ⟨hla, hb, ih (by omega) hrest⟩

/-- The host's write keeps the canonical form. -/
theorem wf_write {m : Memory} (i : Nat) (v : Byte) (hm : m.wf = true) : (Memory.write m i v).wf = true :=
  wfFrom_write (Nat.zero_le i) hm

/-- MSG of the reset state is in canonical form. -/
theorem reset_msg_wf : State.reset.msg.wf = true := rfl

end Sys2Proof.Machine
end

