-- ==== Sys2Proof/Laws/State.lean ====
section
/-! SUPPORT. What each shared operation leaves in each field of the state. -/

namespace Sys2Proof.Machine

@[simp] theorem emit_ph (w : Word) (s : State) : (emit w s).ph = s.ph := rfl
@[simp] theorem emit_done (w : Word) (s : State) : (emit w s).done = s.done := rfl
@[simp] theorem emit_err (w : Word) (s : State) : (emit w s).err = s.err := rfl
@[simp] theorem emit_res (w : Word) (s : State) : (emit w s).res = s.res := rfl
@[simp] theorem emit_outp (w : Word) (s : State) : (emit w s).outp = s.outp + 1 := rfl
@[simp] theorem emit_req (w : Word) (s : State) : (emit w s).req = s.req := rfl
@[simp] theorem emit_work (w : Word) (s : State) : (emit w s).work = s.work := rfl
@[simp] theorem emit_port (w : Word) (s : State) : (emit w s).port = s.port := rfl
@[simp] theorem emit_msg (w : Word) (s : State) : (emit w s).msg = s.msg := rfl
@[simp] theorem emit_out (w : Word) (s : State) : (emit w s).out = s.out ++ [w] := rfl
@[simp] theorem emit_params (w : Word) (s : State) : (emit w s).params = s.params := rfl
@[simp] theorem emit_free (w : Word) (s : State) : (emit w s).free = s.free := rfl

@[simp] theorem emitC_ph (w : Word) (s : State) : (emitC w s).ph = s.ph := rfl
@[simp] theorem emitC_done (w : Word) (s : State) : (emitC w s).done = s.done := rfl
@[simp] theorem emitC_err (w : Word) (s : State) : (emitC w s).err = s.err := rfl
@[simp] theorem emitC_res (w : Word) (s : State) : (emitC w s).res = s.res := rfl
@[simp] theorem emitC_outp (w : Word) (s : State) : (emitC w s).outp = s.outp + 1 := rfl
@[simp] theorem emitC_req (w : Word) (s : State) : (emitC w s).req = s.req := rfl
@[simp] theorem emitC_work (w : Word) (s : State) :
    (emitC w s).work = { s.work with cnt := nextCount s.work.cnt } := rfl
@[simp] theorem emitC_port (w : Word) (s : State) : (emitC w s).port = s.port := rfl
@[simp] theorem emitC_msg (w : Word) (s : State) : (emitC w s).msg = s.msg := rfl
@[simp] theorem emitC_out (w : Word) (s : State) : (emitC w s).out = s.out ++ [w] := rfl
@[simp] theorem emitC_params (w : Word) (s : State) : (emitC w s).params = s.params := rfl
@[simp] theorem emitC_free (w : Word) (s : State) : (emitC w s).free = s.free := rfl

@[simp] theorem emitPayload_ph (w : Word) (s : State) : (emitPayload w s).ph = s.ph := rfl
@[simp] theorem emitPayload_done (w : Word) (s : State) : (emitPayload w s).done = s.done := rfl
@[simp] theorem emitPayload_err (w : Word) (s : State) : (emitPayload w s).err = s.err := rfl
@[simp] theorem emitPayload_res (w : Word) (s : State) : (emitPayload w s).res = s.res := rfl
@[simp] theorem emitPayload_outp (w : Word) (s : State) : (emitPayload w s).outp = s.outp + 1 := rfl
@[simp] theorem emitPayload_req (w : Word) (s : State) : (emitPayload w s).req = s.req := rfl
@[simp] theorem emitPayload_work (w : Word) (s : State) :
    (emitPayload w s).work = { s.work with cnt := if s.req.op = packOp then s.work.cnt else nextCount s.work.cnt } := rfl
@[simp] theorem emitPayload_port (w : Word) (s : State) : (emitPayload w s).port = s.port := rfl
@[simp] theorem emitPayload_msg (w : Word) (s : State) : (emitPayload w s).msg = s.msg := rfl
@[simp] theorem emitPayload_out (w : Word) (s : State) : (emitPayload w s).out = s.out ++ [w] := rfl
@[simp] theorem emitPayload_params (w : Word) (s : State) : (emitPayload w s).params = s.params := rfl
@[simp] theorem emitPayload_free (w : Word) (s : State) : (emitPayload w s).free = s.free := rfl

@[simp] theorem emitData_ph (w : Word) (s : State) : (emitData w s).ph = s.ph := rfl
@[simp] theorem emitData_done (w : Word) (s : State) : (emitData w s).done = s.done := rfl
@[simp] theorem emitData_err (w : Word) (s : State) : (emitData w s).err = s.err := rfl
@[simp] theorem emitData_res (w : Word) (s : State) : (emitData w s).res = s.res := rfl
@[simp] theorem emitData_outp (w : Word) (s : State) : (emitData w s).outp = s.outp + 1 := rfl
@[simp] theorem emitData_req (w : Word) (s : State) : (emitData w s).req = s.req := rfl
@[simp] theorem emitData_work (w : Word) (s : State) :
    (emitData w s).work = { s.work with
        cnt := if s.req.op = packOp then s.work.cnt else nextCount s.work.cnt
        wpos := nextSlot s.work.wpos, sp := syncAfter s.work.wpos s.work.sp } := rfl
@[simp] theorem emitData_port (w : Word) (s : State) : (emitData w s).port = s.port := rfl
@[simp] theorem emitData_msg (w : Word) (s : State) : (emitData w s).msg = s.msg := rfl
@[simp] theorem emitData_out (w : Word) (s : State) : (emitData w s).out = s.out ++ [w] := rfl
@[simp] theorem emitData_params (w : Word) (s : State) : (emitData w s).params = s.params := rfl
@[simp] theorem emitData_free (w : Word) (s : State) : (emitData w s).free = s.free := rfl

@[simp] theorem finish_ph (s : State) : (finish s).ph = .done := rfl
@[simp] theorem finish_done (s : State) : (finish s).done = true := rfl
@[simp] theorem finish_err (s : State) : (finish s).err = s.err := rfl
@[simp] theorem finish_res (s : State) : (finish s).res = Config.freeValue s.free 10 := rfl
@[simp] theorem finish_outp (s : State) : (finish s).outp = s.outp := rfl
@[simp] theorem finish_req (s : State) : (finish s).req = s.req := rfl
@[simp] theorem finish_work (s : State) : (finish s).work = Working.unwritten s.free := rfl
@[simp] theorem finish_port (s : State) : (finish s).port = s.port := rfl
@[simp] theorem finish_msg (s : State) : (finish s).msg = s.msg := rfl
@[simp] theorem finish_out (s : State) : (finish s).out = s.out := rfl
@[simp] theorem finish_params (s : State) : (finish s).params = s.params := rfl
@[simp] theorem finish_free (s : State) : (finish s).free = s.free + 1 := rfl

@[simp] theorem takeRefusal_ph (c : Cause) (s : State) : (takeRefusal c s).ph = .done := rfl
@[simp] theorem takeRefusal_done (c : Cause) (s : State) : (takeRefusal c s).done = true := rfl
@[simp] theorem takeRefusal_err (c : Cause) (s : State) : (takeRefusal c s).err = causeCode c := rfl
@[simp] theorem takeRefusal_res (c : Cause) (s : State) : (takeRefusal c s).res = Config.freeValue s.free 10 := rfl
@[simp] theorem takeRefusal_outp (c : Cause) (s : State) : (takeRefusal c s).outp = 0 := rfl
@[simp] theorem takeRefusal_req (c : Cause) (s : State) : (takeRefusal c s).req = s.req := rfl
@[simp] theorem takeRefusal_work (c : Cause) (s : State) : (takeRefusal c s).work = s.work := rfl
@[simp] theorem takeRefusal_port (c : Cause) (s : State) : (takeRefusal c s).port = s.port := rfl
@[simp] theorem takeRefusal_msg (c : Cause) (s : State) : (takeRefusal c s).msg = s.msg := rfl
@[simp] theorem takeRefusal_out (c : Cause) (s : State) : (takeRefusal c s).out = s.out := rfl
@[simp] theorem takeRefusal_params (c : Cause) (s : State) : (takeRefusal c s).params = s.params := rfl
@[simp] theorem takeRefusal_free (c : Cause) (s : State) : (takeRefusal c s).free = s.free + 1 := rfl

@[simp] theorem accept_ph (s : State) : (accept s).ph = s.ph := rfl
@[simp] theorem accept_done (s : State) : (accept s).done = false := rfl
@[simp] theorem accept_err (s : State) : (accept s).err = 0 := rfl
@[simp] theorem accept_res (s : State) : (accept s).res = s.res := rfl
@[simp] theorem accept_outp (s : State) : (accept s).outp = 0 := rfl
@[simp] theorem accept_req (s : State) : (accept s).req = s.req := rfl
@[simp] theorem accept_work (s : State) : (accept s).work = s.work := rfl
@[simp] theorem accept_port (s : State) : (accept s).port = s.port := rfl
@[simp] theorem accept_msg (s : State) : (accept s).msg = s.msg := rfl
@[simp] theorem accept_out (s : State) : (accept s).out = s.out := rfl
@[simp] theorem accept_params (s : State) : (accept s).params = s.params := rfl
@[simp] theorem accept_free (s : State) : (accept s).free = s.free := rfl

@[simp] theorem scalarDone_ph (v : Nat) (s : State) : (scalarDone v s).ph = .done := rfl
@[simp] theorem scalarDone_done (v : Nat) (s : State) : (scalarDone v s).done = true := rfl
@[simp] theorem scalarDone_err (v : Nat) (s : State) : (scalarDone v s).err = s.err := rfl
@[simp] theorem scalarDone_res (v : Nat) (s : State) : (scalarDone v s).res = v := rfl
@[simp] theorem scalarDone_outp (v : Nat) (s : State) : (scalarDone v s).outp = s.outp := rfl
@[simp] theorem scalarDone_req (v : Nat) (s : State) : (scalarDone v s).req = s.req := rfl
@[simp] theorem scalarDone_work (v : Nat) (s : State) : (scalarDone v s).work = s.work := rfl
@[simp] theorem scalarDone_port (v : Nat) (s : State) : (scalarDone v s).port = s.port := rfl
@[simp] theorem scalarDone_msg (v : Nat) (s : State) : (scalarDone v s).msg = s.msg := rfl
@[simp] theorem scalarDone_out (v : Nat) (s : State) : (scalarDone v s).out = s.out := rfl
@[simp] theorem scalarDone_params (v : Nat) (s : State) : (scalarDone v s).params = s.params := rfl
@[simp] theorem scalarDone_free (v : Nat) (s : State) : (scalarDone v s).free = s.free := rfl

@[simp] theorem openStream_ph (r : Request) (s : State) : (openStream r s).ph = s.ph := rfl
@[simp] theorem openStream_done (r : Request) (s : State) : (openStream r s).done = s.done := rfl
@[simp] theorem openStream_err (r : Request) (s : State) : (openStream r s).err = s.err := rfl
@[simp] theorem openStream_res (r : Request) (s : State) : (openStream r s).res = s.res := rfl
@[simp] theorem openStream_outp (r : Request) (s : State) : (openStream r s).outp = s.outp := rfl
@[simp] theorem openStream_req (r : Request) (s : State) : (openStream r s).req = r := rfl
@[simp] theorem openStream_work (r : Request) (s : State) : (openStream r s).work = s.work := rfl
@[simp] theorem openStream_port (r : Request) (s : State) : (openStream r s).port = s.port := rfl
@[simp] theorem openStream_msg (r : Request) (s : State) : (openStream r s).msg = s.msg := rfl
@[simp] theorem openStream_out (r : Request) (s : State) : (openStream r s).out = [] := rfl
@[simp] theorem openStream_params (r : Request) (s : State) : (openStream r s).params = s.params := rfl
@[simp] theorem openStream_free (r : Request) (s : State) : (openStream r s).free = s.free := rfl

@[simp] theorem latch_ph (r : Request) (s : State) : (latch r s).ph = s.ph := rfl
@[simp] theorem latch_done (r : Request) (s : State) : (latch r s).done = s.done := rfl
@[simp] theorem latch_err (r : Request) (s : State) : (latch r s).err = s.err := rfl
@[simp] theorem latch_res (r : Request) (s : State) : (latch r s).res = s.res := rfl
@[simp] theorem latch_outp (r : Request) (s : State) : (latch r s).outp = s.outp := rfl
@[simp] theorem latch_req (r : Request) (s : State) : (latch r s).req = r := rfl
@[simp] theorem latch_work (r : Request) (s : State) : (latch r s).work = s.work := rfl
@[simp] theorem latch_port (r : Request) (s : State) : (latch r s).port = none := rfl
@[simp] theorem latch_msg (r : Request) (s : State) : (latch r s).msg = s.msg := rfl
@[simp] theorem latch_out (r : Request) (s : State) : (latch r s).out = s.out := rfl
@[simp] theorem latch_params (r : Request) (s : State) : (latch r s).params = s.params := rfl
@[simp] theorem latch_free (r : Request) (s : State) : (latch r s).free = s.free := rfl

end Sys2Proof.Machine
end

