-- ==== Sys2Proof/Laws/Ops.lean ====
section
/-! SUPPORT. What each shared operation of the block can do, said once: the provers cite these. -/

namespace Sys2Proof.Machine

/-- A request reaches its meaning from READY and DONE only, with the status cleared. -/
theorem whenIdle_next {s t : State} {k : State → Result} :
    whenIdle s k = .next t ↔ s.ph.idle = true ∧ k (accept s) = .next t := by
  unfold whenIdle
  split <;> simp_all

/-- In a running phase every request is barred. -/
theorem whenIdle_running {s : State} {k : State → Result} (h : s.ph.idle = false) :
    whenIdle s k = .refused .requestWhileRunning := by
  simp [whenIdle, h]

/-- A request that reads `N` is refused by the block, or goes on. -/
theorem withLength_next {n : Nat} {s t : State} {k : State → Result} :
    withLength n s k = .next t ↔
      s.ph.idle = true ∧
        ((tooLong s.params n = true ∧ takeRefusal .msgTooLong (accept s) = t) ∨
          (tooLong s.params n = false ∧ k (accept s) = .next t)) := by
  unfold withLength
  rw [whenIdle_next]
  cases h : tooLong s.params n <;> simp [h]

theorem scalar_next {v : Nat} {s t : State} :
    scalar v s = .next t ↔ s.ph.idle = true ∧ scalarDone v (accept s) = t := by
  simp [scalar, whenIdle_next]

theorem refuseSelector_next {s t : State} :
    refuseSelector s = .next t ↔ s.ph.idle = true ∧ takeRefusal .reservedOp (accept s) = t := by
  simp [refuseSelector, whenIdle_next]

theorem tooLong_none {p : Config.Params} (h : p.maxMsgLen = none) (n : Nat) : tooLong p n = false := by
  simp [tooLong, h]

theorem tooLong_some {p : Config.Params} {m : Nat} (h : p.maxMsgLen = some m) (n : Nat) :
    tooLong p n = true ↔ m < n := by
  simp [tooLong, h]

/-- A phase is idle when it is READY or DONE. -/
theorem idle_iff {p : Phase} : p.idle = true ↔ p = .ready ∨ p = .done := by cases p <;> decide

/-- A step from READY or DONE is the meaning of the presented request, latched. -/
theorem step_idle {s : State} (h : s.ph.idle = true) :
    step s = match s.port with
      | none => .fault .noStepEnabled
      | some r =>
        if r.fits s.params then exec (decodeRequest r) (latch r s) else .refused .operandTooWide := by
  unfold step fetch
  rw [if_pos h]
  cases s.port with
  | none => rfl
  | some r => cases hf : r.fits s.params <;> simp [hf]

/-- A step of a running phase is the meaning of the due word, or a silent step. -/
theorem step_running {s : State} (h : s.ph.idle = false) (hp : s.port = none) :
    step s = match due s with
      | some i => exec i s
      | none => .next (silentStep s) := by
  unfold step fetch
  rw [if_neg (by simp [h]), hp]
  cases due s <;> rfl

/-- Everything a step that answers a next state can be. -/
theorem step_next {s t : State} (h : step s = .next t) :
    (s.ph.idle = true ∧ ∃ r, s.port = some r ∧ r.fits s.params = true ∧
        exec (decodeRequest r) (latch r s) = .next t) ∨
      (s.ph.idle = false ∧ s.port = none ∧ ∃ i, due s = some i ∧ exec i s = .next t) ∨
      (s.ph.idle = false ∧ s.port = none ∧ due s = none ∧ silentStep s = t) := by
  cases hi : s.ph.idle with
  | true =>
    rw [step_idle hi] at h
    cases hp : s.port with
    | none => simp [hp] at h
    | some r =>
      simp only [hp] at h
      split at h
      · exact .inl ⟨rfl, r, rfl, by assumption, h⟩
      · simp at h
  | false =>
    cases hp : s.port with
    | some r => simp [step, fetch, hi, hp] at h
    | none =>
      rw [step_running hi hp] at h
      cases hd : due s with
      | some i => exact .inr (.inl ⟨rfl, rfl, i, rfl, by simpa [hd] using h⟩)
      | none => exact .inr (.inr ⟨rfl, rfl, rfl, by simpa [hd] using h⟩)

theorem execWordPreamble_next {s t : State} :
    execWordPreamble s = .next t ↔ due s = some .wordPreamble ∧ preStep s = t := by
  unfold execWordPreamble; split <;> simp_all

theorem execWordSync_next {s t : State} :
    execWordSync s = .next t ↔
      due s = some .wordSync ∧ (if s.ph = .sync0 then sync0Step s else pendingSyncStep s) = t := by
  unfold execWordSync; split <;> simp_all

theorem execWordIdle_next {s t : State} :
    execWordIdle s = .next t ↔
      due s = some .wordIdle ∧
        (if s.ph = .idlePrefix then prefixStep s else if s.ph = .term then termStep s else padStep s) = t := by
  unfold execWordIdle; split <;> simp_all

theorem execWordAddress_next {hi : BitVec 18} {fb : BitVec 2} {s t : State} :
    execWordAddress hi fb s = .next t ↔ due s = some (.wordAddress hi fb) ∧ addrStep s = t := by
  unfold execWordAddress; split <;> simp_all

theorem execWordMessage_next {g : BitVec 20} {s t : State} :
    execWordMessage g s = .next t ↔ due s = some (.wordMessage g) ∧ flushStep s = t := by
  unfold execWordMessage; split <;> simp_all

theorem execWordCodeword_next {d : BitVec 21} {s t : State} :
    execWordCodeword d s = .next t ↔ dueCodeword s = some (encodeCodeword d) ∧ codewordStep s = t := by
  unfold execWordCodeword; split <;> simp_all

end Sys2Proof.Machine
end

