-- ==== Sys2Proof/Laws/PerInstr.lean ====
section
/-! SUPPORT. The per-instruction family TableRow: the encoding of an instruction has the bits that its row of
spec/opcode_table.json fixes (its match under its mask). -/

namespace Sys2Proof.Laws

/-- The bits the table numbers: the selector of a request, or a word of OUT. -/
def codeBits : Code → BitVec 32
  | .request r => r.op.setWidth 32
  | .word w => w

/-- The row's mask and match, as the table has them. -/
def rowBits : Instr → BitVec 32 × BitVec 32
  | .crc10 _ => (0xF, 0x1)
  | .par32 _ => (0xF, 0x2)
  | .encw _ => (0xF, 0x3)
  | .aoff _ => (0xF, 0x4)
  | .addrw _ _ => (0xF, 0x5)
  | .msgw _ => (0xF, 0x6)
  | .numd _ => (0xF, 0x7)
  | .pack _ _ _ => (0xF, 0x8)
  | .tx1 _ _ _ _ _ => (0xF, 0x9)
  | .txr _ _ _ _ _ => (0xF, 0xA)
  | .len _ _ _ _ => (0xF, 0xB)
  | .reserved0 => (0xF, 0x0)
  | .reservedC => (0xF, 0xC)
  | .reservedD => (0xF, 0xD)
  | .reservedE => (0xF, 0xE)
  | .reservedF => (0xF, 0xF)
  | .wordPreamble => (0xFFFFFFFF, 0xAAAAAAAA)
  | .wordSync => (0xFFFFFFFF, 0x7CD215D8)
  | .wordIdle => (0xFFFFFFFF, 0x7A89C197)
  | .wordAddress _ _ => (0x80000000, 0x00000000)
  | .wordMessage _ => (0x80000000, 0x80000000)
  | .wordCodeword _ => (0, 0)

/-- The encoding has the row's fixed bits. -/
def TableRow.Statement (i : Instr) : Prop := codeBits (encode i) &&& (rowBits i).1 = (rowBits i).2

/-- The role flag of a codeword is the top bit of its data (R89). -/
theorem flag_encodeCodeword (d : BitVec 21) : (Machine.encodeCodeword d).getLsbD 31 = d.getLsbD 20 := by
  simp only [Machine.encodeCodeword, Machine.fullValue, BitVec.getLsbD_or, BitVec.getLsbD_shiftLeft,
    BitVec.getLsbD_setWidth]
  simp

/-- The mask of the role flag picks bit 31. -/
theorem and_flagMask (w : Word) : w &&& 0x80000000#32 = if w.getLsbD 31 then 0x80000000#32 else 0#32 := by
  apply BitVec.eq_of_getLsbD_eq
  intro i hi
  have hm : ∀ k, k < 32 → (0x80000000#32).getLsbD k = decide (k = 31) := by decide
  by_cases h : i = 31
  · subst h
    cases hw : w.getLsbD 31 with
    | false => simpa using hw
    | true => simpa using hw
  · cases hw : w.getLsbD 31 <;> simp [hm i hi, h]

theorem TableRow.crc10 (data : BitVec 21) : TableRow.Statement (.crc10 data) := by
  simp [TableRow.Statement, encode, codeBits, rowBits]
theorem TableRow.par32 (x : BitVec 32) : TableRow.Statement (.par32 x) := by
  simp [TableRow.Statement, encode, codeBits, rowBits]
theorem TableRow.encw (data : BitVec 21) : TableRow.Statement (.encw data) := by
  simp [TableRow.Statement, encode, codeBits, rowBits]
theorem TableRow.aoff (address : BitVec 21) : TableRow.Statement (.aoff address) := by
  simp [TableRow.Statement, encode, codeBits, rowBits]
theorem TableRow.addrw (address : BitVec 21) (fb : BitVec 2) : TableRow.Statement (.addrw address fb) := by
  simp [TableRow.Statement, encode, codeBits, rowBits]
theorem TableRow.msgw (group : BitVec 20) : TableRow.Statement (.msgw group) := by
  simp [TableRow.Statement, encode, codeBits, rowBits]
theorem TableRow.numd (ch : Byte) : TableRow.Statement (.numd ch) := by
  simp [TableRow.Statement, encode, codeBits, rowBits]
theorem TableRow.pack (mode : Mode) (start : BitVec 4) (n : Nat) : TableRow.Statement (.pack mode start n) := by
  simp [TableRow.Statement, encode, codeBits, rowBits]
theorem TableRow.tx1 (repidx : Nat) (address : BitVec 21) (fb : BitVec 2) (mode : Mode) (n : Nat) :
    TableRow.Statement (.tx1 repidx address fb mode n) := by
  simp [TableRow.Statement, encode, codeBits, rowBits]
theorem TableRow.txr (repcnt : Nat) (address : BitVec 21) (fb : BitVec 2) (mode : Mode) (n : Nat) :
    TableRow.Statement (.txr repcnt address fb mode n) := by
  simp [TableRow.Statement, encode, codeBits, rowBits]
theorem TableRow.len (repidx : Nat) (address : BitVec 21) (mode : Mode) (n : Nat) :
    TableRow.Statement (.len repidx address mode n) := by
  simp [TableRow.Statement, encode, codeBits, rowBits]
theorem TableRow.reserved0 : TableRow.Statement .reserved0 := by
  simp [TableRow.Statement, encode, codeBits, rowBits]
theorem TableRow.reservedC : TableRow.Statement .reservedC := by
  simp [TableRow.Statement, encode, codeBits, rowBits]
theorem TableRow.reservedD : TableRow.Statement .reservedD := by
  simp [TableRow.Statement, encode, codeBits, rowBits]
theorem TableRow.reservedE : TableRow.Statement .reservedE := by
  simp [TableRow.Statement, encode, codeBits, rowBits]
theorem TableRow.reservedF : TableRow.Statement .reservedF := by
  simp [TableRow.Statement, encode, codeBits, rowBits]
theorem TableRow.wordPreamble : TableRow.Statement .wordPreamble := by
  unfold TableRow.Statement; decide
theorem TableRow.wordSync : TableRow.Statement .wordSync := by
  unfold TableRow.Statement; decide
theorem TableRow.wordIdle : TableRow.Statement .wordIdle := by
  unfold TableRow.Statement; decide
theorem TableRow.wordAddress (addrHi : BitVec 18) (fb : BitVec 2) :
    TableRow.Statement (.wordAddress addrHi fb) := by
  have h : (Machine.addressData (Machine.addressOfHi addrHi) fb).getLsbD 20 = false := by
    simp [Machine.addressData]
  exact (and_flagMask (Machine.encodeCodeword _)).trans (by rw [flag_encodeCodeword, h]; rfl)
theorem TableRow.wordMessage (group : BitVec 20) : TableRow.Statement (.wordMessage group) := by
  have h : (Machine.messageData group).getLsbD 20 = true := by
    simp [Machine.messageData]
  exact (and_flagMask (Machine.encodeCodeword _)).trans (by rw [flag_encodeCodeword, h]; rfl)
theorem TableRow.wordCodeword (data : BitVec 21) : TableRow.Statement (.wordCodeword data) := by
  simp [TableRow.Statement, encode, codeBits, rowBits]

end Sys2Proof.Laws
end

