-- ==== Sys2Proof/Tests/Slice0.lean ====
section
/-! SUPPORT. The model's own tests: the checks of WellFormed, decoding words written out from the spec, one step of each
instruction against 95_test_vectors.md, and a witness for the hypotheses of every statement. -/

namespace Sys2Proof.Tests

open Sys2Proof Sys2Proof.Machine

/-- RES of a next state. -/
def resOf : Result → Option Nat
  | .next t => some t.res
  | .fault _ => none
  | .refused _ => none

/-- A field of a next state. -/
def sees {α : Type} (f : State → α) : Result → Option α
  | .next t => some (f t)
  | .fault _ => none
  | .refused _ => none

/-- The reset state moved to a phase. -/
def inPhase (p : Phase) : State := { State.reset with ph := p }

/-- The reset state in a phase, with these working registers changed. -/
def with20 (acc : BitVec 20) (wpos : BitVec 4) (op : BitVec 4) : State :=
  { inPhase .payload with
    req := { Request.zero with op := op }
    work := { Working.unwritten 0 with acc := acc, nb := 20, wpos := wpos, sp := false, cnt := 3 } }

/-- An instance of at most five characters and three-bit repeat operands. -/
def small : Config.Params := { Config.Params.default with maxMsgLen := some 5, repW := some ⟨3, by decide⟩ }

-- ---------------------------------------------------------------- WellFormed

theorem test_wf_repidx_too_wide : (Instr.tx1 8 0 0 .text 0).wellFormed small = false := by decide
theorem test_wf_repcnt_too_wide : (Instr.txr 8 0 0 .text 0).wellFormed small = false := by decide
theorem test_wf_len_repidx_too_wide : (Instr.len 8 0 .text 0).wellFormed small = false := by decide
theorem test_wf_repidx_fits : (Instr.tx1 7 0 0 .text 0).wellFormed small = true := by decide
-- R99: the address codewords that share the value of SYNC and of IDLE
theorem test_wf_address_is_sync : (Instr.wordAddress 0x3E690 2).wellFormed small = false := by decide +kernel
theorem test_wf_address_is_idle : (Instr.wordAddress 0x3D44E 0).wellFormed small = false := by decide +kernel
theorem test_wf_generic_codeword : (Instr.wordCodeword 0).wellFormed small = false := by decide
theorem test_fits_refuses : ({ Request.zero with repcnt := 8 } : Request).fits small = false := by decide

-- ---------------------------------------------------------------- decoding, from the spec's encodings

-- R95: each selector, the operands at values of their own
theorem test_decode_crc10 : decode (.request { Request.zero with op := 0b0001, data := 0x1ABCD }) = .crc10 0x1ABCD := by decide
theorem test_decode_par32 : decode (.request { Request.zero with op := 0b0010, x := 0xDEADBEEF }) = .par32 0xDEADBEEF := by decide
theorem test_decode_encw : decode (.request { Request.zero with op := 0b0011, data := 0x0F9A42 }) = .encw 0x0F9A42 := by decide
theorem test_decode_aoff : decode (.request { Request.zero with op := 0b0100, address := 1234 }) = .aoff 1234 := by decide
theorem test_decode_addrw :
    decode (.request { Request.zero with op := 0b0101, address := 1234, fb := 3 }) = .addrw 1234 3 := by decide
theorem test_decode_msgw : decode (.request { Request.zero with op := 0b0110, group := 0x83080 }) = .msgw 0x83080 := by decide
theorem test_decode_numd : decode (.request { Request.zero with op := 0b0111, ch := 0x31 }) = .numd 0x31 := by decide
theorem test_decode_pack :
    decode (.request { Request.zero with op := 0b1000, mode := 1, start := 3, n := 3 }) = .pack .numeric 3 3 := by decide
-- P1: OP=9 REPIDX=0 ADDRESS=0004D2 FB=3 MODE=0 N=5
theorem test_decode_tx1 :
    decode (.request { Request.zero with op := 0b1001, address := 0x4D2, fb := 3, n := 5 }) =
      .tx1 0 1234 3 .text 5 := by decide
-- P2: OP=A REPCNT=2 ADDRESS=000007 FB=0 MODE=1 N=10
theorem test_decode_txr :
    decode (.request { Request.zero with op := 0b1010, repcnt := 2, address := 7, mode := 1, n := 10 }) =
      .txr 2 7 0 .numeric 10 := by decide
-- P1: OP=B REPIDX=0 ADDRESS=0004D2 N=5 MODE=0
theorem test_decode_len :
    decode (.request { Request.zero with op := 0b1011, address := 0x4D2, n := 5 }) = .len 0 1234 .text 5 := by decide
theorem test_decode_reserved :
    decodeTableWord 8 0b0000 = some .reserved0 ∧ decodeTableWord 8 0b1100 = some .reservedC ∧
      decodeTableWord 8 0b1101 = some .reservedD ∧ decodeTableWord 8 0b1110 = some .reservedE ∧
      decodeTableWord 8 0b1111 = some .reservedF := by decide
-- R86, the table's encodings bit by bit
theorem test_decode_preamble :
    decodeTableWord 32 0b10101010101010101010101010101010 = some .wordPreamble := by decide
theorem test_decode_sync : decodeTableWord 32 0b01111100110100100001010111011000 = some .wordSync := by decide
theorem test_decode_idle : decodeTableWord 32 0b01111010100010011100000110010111 = some .wordIdle := by decide
-- R82: flag 0, ADDRESS[20:3] = 9A, FB = 3, crc 31F, parity 1 (ADDRW 1234, 3)
theorem test_decode_address_word :
    decodeTableWord 32 0b0_000000000010011010_11_1100011111_1 = some (.wordAddress 0x9A 3) := by decide
-- R83: flag 1, group 83080, crc 3FE, parity 0 (MSGW 83080)
theorem test_decode_message_word :
    decodeTableWord 32 0b1_10000011000010000000_1111111110_0 = some (.wordMessage 0x83080) := by decide
-- the generic format reads back as the class of its role flag: data 155555 (95_test_vectors.md section 3.3)
theorem test_decode_generic_codeword : decode (encode (.wordCodeword 0x155555)) = .wordMessage 0x55555 := by decide +kernel
theorem test_decode_rejects :
    decodeBits 8 0x10 = .error (.selectorTooWide 0x10) ∧ decodeBits 16 1 = .error (.noSuchFormat 16) := by decide
theorem test_read_back_address : addressOfWord 0x00135E3F#32 4#4 = 1234#21 := by decide

-- ---------------------------------------------------------------- one step of each instruction

-- 95_test_vectors.md section 3.1
theorem test_crc10 : resOf (exec (.crc10 0x26B) State.reset) = some 0x31F := by decide +kernel
-- section 3.2
theorem test_par32_high_bit : resOf (exec (.par32 0x80000000) State.reset) = some 1 := by decide
theorem test_par32_idle_full : resOf (exec (.par32 0x3D44E0CB) State.reset) = some 1 := by decide
-- section 3.3
theorem test_encw : resOf (exec (.encw 0x1E0F83) State.reset) = some 0xF07C1B16 := by decide +kernel
-- S4
theorem test_aoff : resOf (exec (.aoff 0x1EA277) State.reset) = some 0xE := by decide
-- section 3.4
theorem test_addrw : resOf (exec (.addrw 1234 2) State.reset) = some 0x001350EC := by decide +kernel
theorem test_addrw_largest : resOf (exec (.addrw 0x1FFFFF 3) State.reset) = some 0x7FFFF896 := by decide +kernel
theorem test_msgw : resOf (exec (.msgw 0xAAAAA) State.reset) = some 0xD555578D := by decide +kernel
-- section 3.5: ':' is one past '9'; B0 is compared whole
theorem test_numd_digit : resOf (exec (.numd 0x35) State.reset) = some 0xA := by decide
theorem test_numd_default :
    resOf (exec (.numd 0x3A) State.reset) = some 0xA ∧ resOf (exec (.numd 0xB0) State.reset) = some 0xA := by decide
-- section 3.8
theorem test_len_tie : resOf (exec (.len 1 7 .text 0) State.reset) = some 17 := by decide
theorem test_len_numeric : resOf (exec (.len 0 7 .numeric 10) State.reset) = some 52 := by decide
-- R183
theorem test_pack_starts :
    sees (fun t => (t.ph, t.outp, t.work.wpos, t.work.nb)) (exec (.pack .text 15 2) State.reset) =
      some (.payload, 0, 15, 0) := by decide
-- R206
theorem test_tx1_later_repeat :
    sees (fun t => (t.ph, t.work.repi, t.work.rend)) (exec (.tx1 5 1234 3 .text 5) State.reset) =
      some (.sync0, 5, 6) := by decide
theorem test_tx1_first_repeat :
    sees (fun t => (t.ph, t.work.k)) (exec (.tx1 0 1234 3 .text 5) State.reset) = some (.pre, 0) := by decide
-- section 3.7: TXR 0 is empty
theorem test_txr_empty :
    sees (fun t => (t.ph, t.done, t.outp, t.out)) (exec (.txr 0 1234 3 .text 5) State.reset) =
      some (.done, true, 0, []) := by decide
theorem test_txr_starts :
    sees (fun t => (t.ph, t.work.repi, t.work.rend)) (exec (.txr 3 1234 3 .text 5) State.reset) =
      some (.pre, 0, 3) := by decide
-- section 3.9
theorem test_reserved0 :
    sees (fun t => (t.done, t.err, t.outp)) (exec .reserved0 State.reset) = some (true, 1, 0) := by decide
theorem test_reservedC : sees State.err (exec .reservedC State.reset) = some 1 := by decide
theorem test_reservedD : sees State.err (exec .reservedD State.reset) = some 1 := by decide
theorem test_reservedE : sees State.err (exec .reservedE State.reset) = some 1 := by decide
theorem test_reservedF : sees State.err (exec .reservedF State.reset) = some 1 := by decide
theorem test_message_too_long :
    sees (fun t => (t.done, t.err, t.outp, t.out)) (exec (.tx1 0 1234 3 .text 6) (State.powerOn small)) =
      some (true, 2, 0, []) := by decide
theorem test_longest_message_accepted :
    sees State.err (exec (.tx1 0 1234 3 .text 5) (State.powerOn small)) = some 0 := by decide
-- R207: the eighteenth preamble word
theorem test_word_preamble :
    sees (fun t => (t.ph, t.out))
      (exec .wordPreamble { inPhase .pre with work := { Working.unwritten 0 with k := 17 } }) =
      some (.sync0, [0xAAAAAAAA]) := by decide
-- R208
theorem test_word_sync :
    sees (fun t => (t.out, t.work.cnt, t.work.k)) (exec .wordSync (inPhase .sync0)) =
      some ([0x7CD215D8], 1, 0) := by decide
-- R213: the count of 16 wraps to 0
theorem test_word_idle :
    sees (fun t => (t.ph, t.out, t.work.cnt))
      (exec .wordIdle { inPhase .pad with work := { Working.unwritten 0 with cnt := 16 } }) =
      some (.pad, [0x7A89C197], 0) := by decide
-- R210, P1: address 1234, function bits 3, slot 4, so the counter starts at 5
theorem test_word_address :
    sees (fun t => (t.ph, t.out, t.work.wpos))
      (exec (.wordAddress 0x9A 3) { inPhase .addr with req := { Request.zero with address := 1234, fb := 3 } }) =
      some (.payload, [0x00135E3F], 5) := by decide +kernel
-- the trace of PACK T, 15, "AB", step 16: WPOS wraps, SP is set, PACK does not count
theorem test_word_message :
    sees (fun t => (t.out, t.work.acc, t.work.nb, t.work.wpos, t.work.sp))
      (exec (.wordMessage 0x83080) (with20 0x83080 15 8)) = some ([0xC18407FC], 0, 0, 0, true) := by decide +kernel
theorem test_word_message_counts :
    sees (fun t => (t.work.cnt, t.work.wpos)) (exec (.wordMessage 0x83080) (with20 0x83080 5 9)) =
      some (4, 6) := by decide
theorem test_word_codeword :
    sees State.out (exec (.wordCodeword 0x183080) (with20 0x83080 15 8)) = some [0xC18407FC] := by decide +kernel
-- the same trace, steps 1 and 7: the first and the last bit of 'A'
theorem test_shift_first_bit :
    sees (fun t => (t.work.acc, t.work.nb, t.work.ci, t.work.bi))
      (step { inPhase .payload with
              req := { Request.zero with op := 8, n := 2 }, msg := [(0, 0x41), (1, 0x42)]
              work := { Working.unwritten 0 with acc := 0, nb := 0, sp := false, ci := 0, bi := 0 } }) =
      some (0x00001, 1, 0, 1) := by decide
theorem test_shift_last_bit :
    sees (fun t => (t.work.acc, t.work.nb, t.work.ci, t.work.bi))
      (step { inPhase .payload with
              req := { Request.zero with op := 8, n := 2 }, msg := [(0, 0x41), (1, 0x42)]
              work := { Working.unwritten 0 with acc := 0x20, nb := 6, sp := false, ci := 0, bi := 6 } }) =
      some (0x00041, 7, 1, 0) := by decide
-- the same trace, step 15
theorem test_pad_step :
    sees (fun t => (t.work.acc, t.work.nb))
      (step { inPhase .payload with
              req := { Request.zero with op := 8, n := 2 }
              work := { Working.unwritten 0 with acc := 0x20C2, nb := 14, sp := false, ci := 2, bi := 0 } }) =
      some (0x83080, 20) := by decide

-- the first step after reset runs the instruction that is placed there
theorem test_step_runs_placed_request :
    sees (fun t => (t.ph, t.err)) (step (State.reset.withFetchWord 8 0x9)) = some (.pre, 0) := by decide
theorem test_step_runs_placed_word :
    sees State.out (step (State.reset.withFetchWord 32 0xC18407FC)) = some [0xC18407FC] := by decide +kernel
theorem test_reset_waits : step State.reset = .fault .noStepEnabled := rfl
theorem test_msg_write_held :
    hostWriteMsg 0 0x41 (inPhase .payload) = .refused .operandsHeld := rfl

-- SYNC as a host that reads bytes sees it, most and least significant byte first (R55)
theorem test_bytes_big_endian :
    wordBytes { first := 0, second := 0, third := 0 } 0x7CD215D8#32 = [0x7C#8, 0xD2#8, 0x15#8, 0xD8#8] := by decide
theorem test_bytes_little_endian :
    wordBytes { first := 3, second := 2, third := 1 } 0x7CD215D8#32 = [0xD8#8, 0x15#8, 0xD2#8, 0x7C#8] := by decide

-- ---------------------------------------------------------------- witnesses of the statements' hypotheses

theorem witness_DecodeOfEncode :
    (Instr.tx1 7 1234 3 .text 5).wellFormed small = true ∧ (Instr.wordAddress 0x3E690 1).wellFormed small = true := by
  decide +kernel
theorem witness_SelectorNamesOperation (k : BitVec 4) : ({ Request.zero with op := k } : Request).op = k := rfl
theorem witness_idle : State.reset.ph.idle = true ∧ State.reset.port = none ∧ (inPhase .done).ph.idle = true := by
  decide
/-- The hypotheses of SharedWordsAreTheSixteen, Crc10Result, Par32Result, EncwResult, AoffResult, AddrwResult, MsgwResult
and NumdResult. -/
theorem witness_scalar_results : State.reset.ph.idle = true := rfl
theorem witness_SharedWords_bounds :
    addressWord 0x1F3480 2 = syncWord ∧ addressWord 0x1F3487 2 = syncWord ∧ addressWord 0x1F3488 2 ≠ syncWord ∧
      addressWord 0x1EA270 0 = idleWord ∧ addressWord 0x1EA277 0 = idleWord ∧ addressWord 0x1EA26F 0 ≠ idleWord := by
  decide +kernel
theorem witness_AddrwResult_same_codeword : (8#21).toNat / 8 = (15#21).toNat / 8 := by decide
theorem witness_NumdResult_default :
    (0x2F#8 < 0x30#8) ∧ (0x39#8 < 0x3A#8) ∧
      (0x2F#8 ∉ [0x20#8, 0x75#8, 0x55#8, 0x2D#8, 0x5F#8, 0x28#8, 0x5B#8, 0x29#8, 0x5D#8]) := by decide
/-- The hypotheses of PackStarts, ComposerStarts, PackAppendsItsSequence, Tx1AppendsItsSequence,
TxrAppendsItsSequence and StreamOperationsEnd, at the longest message of an instance and in the reset instance. -/
theorem witness_accepted_requests :
    ((State.powerOn small).ph.idle = true ∧ (State.powerOn small).port = none ∧ tooLong small 5 = false) ∧
      (State.reset.ph.idle = true ∧ State.reset.port = none ∧ tooLong State.reset.params 1000 = false) := by decide
theorem witness_ComposerStarts_counts : (0 = 0) ∧ (0 < 1) := by decide
theorem witness_NumdResult_default_table :
    State.reset.ph.idle = true ∧ State.reset.params.digit1 = 1 ∧ State.reset.params.digit2 = 2 ∧
      State.reset.params.digit3 = 3 ∧ State.reset.params.digit4 = 4 ∧ State.reset.params.digit5 = 5 ∧
      State.reset.params.digit6 = 6 ∧ State.reset.params.digit7 = 7 ∧ State.reset.params.digit8 = 8 := by decide
theorem witness_LenResult :
    (State.powerOn small).ph.idle = true ∧ (∀ m, (State.powerOn small).params.maxMsgLen = some m → 5 ≤ m) ∧
      ∃ m, (State.powerOn small).params.maxMsgLen = some m ∧ m < 6 :=
  ⟨rfl, fun m h => by injection h with h; exact Nat.le_of_eq h, 5, rfl, by decide⟩
theorem witness_CrcTable_bounds : (0 < 21) ∧ (20 < 21) := by decide
theorem witness_TextGroupLayout :
    let msg : List Byte := [0x41]
    (0 < msg.length ∧ 6 < 7) ∧
      (7 * msg.length ≤ 19 ∧ 19 / 20 < (payloadWords Config.Params.default .text msg).length) := by decide
theorem witness_NumericGroupLayout :
    let msg : List Byte := [0x31]
    (5 * 0 + 0 < msg.length) ∧
      (msg.length ≤ 5 * 0 + 4 ∧ 0 < (payloadWords Config.Params.default .numeric msg).length) := by decide
theorem witness_InjectedSyncPositions :
    15 ≤ 15 ∧ 0 < [idleWord].length ∧ (1 ≤ 1 ∧ 1 ≤ [idleWord].length ∧ (15 + 1) % 16 = 0) := by decide
theorem witness_LenClosedForm : 5 ≤ 5 := by decide
theorem witness_PreamblePhase :
    (inPhase .pre).ph = .pre ∧ (inPhase .pre).port = none ∧
      ({ inPhase .pre with work := { Working.unwritten 0 with k := 0 } } : State).work.k = 0#5 := by decide
theorem witness_BatchStartSync : (inPhase .sync0).ph = .sync0 := rfl
theorem witness_IdlePrefixPhase :
    let s : State := { inPhase .idlePrefix with
                       req := { Request.zero with address := 1 }, work := { Working.unwritten 0 with k := 0 } }
    s.ph = .idlePrefix ∧ s.port = none ∧ s.work.k = 0#5 ∧ s.req.address.toNat % 8 ≠ 0 := by decide
theorem witness_AddressPhase : (inPhase .addr).ph = .addr := rfl
theorem witness_PendingSyncFirst :
    let s : State := { inPhase .payload with work := { Working.unwritten 0 with sp := true } }
    s.ph = .payload ∧ s.work.sp = true := by decide
theorem witness_FlushStep :
    (with20 5 15 8).ph = .payload ∧ (with20 5 15 8).work.sp = false ∧ (with20 5 15 8).work.nb = 20#5 := by decide
theorem witness_ShiftStep :
    let s : State := { inPhase .payload with
                       req := { Request.zero with n := 1 }
                       work := { Working.unwritten 0 with sp := false, nb := 19, ci := 0 } }
    s.ph = .payload ∧ s.port = none ∧ s.work.sp = false ∧ s.work.nb ≠ 20#5 ∧ s.work.ci < s.req.n := by decide
theorem witness_PadStep (nb : BitVec 5) :
    let s : State := { inPhase .payload with
                       req := { Request.zero with n := 1 }
                       work := { Working.unwritten 0 with sp := false, nb := nb, ci := 1 } }
    s.ph = .payload ∧ s.port = none ∧ s.work.sp = false ∧ s.work.ci = s.req.n ∧ s.work.nb = nb :=
  ⟨rfl, rfl, rfl, rfl, rfl⟩
theorem witness_PadStep_bits : 0 < (1#5).toNat ∧ (19#5).toNat < 20 := by decide
theorem witness_PayloadEnds (op : BitVec 4) :
    let s : State := { inPhase .payload with
                       req := { Request.zero with op := op }
                       work := { Working.unwritten 0 with sp := false, nb := 0, ci := 0 } }
    s.ph = .payload ∧ s.port = none ∧ s.work.sp = false ∧ s.work.nb = 0#5 ∧ s.req.n ≤ s.work.ci ∧ s.req.op = op :=
  ⟨rfl, rfl, rfl, rfl, Nat.le_refl 0, rfl⟩
theorem witness_TerminatorPhase : (inPhase .term).ph = .term := rfl
theorem witness_PaddingPhase (cnt : BitVec 5) (rend : Nat) :
    let s : State := { inPhase .pad with work := { Working.unwritten 0 with cnt := cnt, repi := 0, rend := rend } }
    s.ph = .pad ∧ s.port = none ∧ s.work.cnt = cnt ∧ s.work.repi = 0 ∧ s.work.rend = rend :=
  ⟨rfl, rfl, rfl, rfl, rfl⟩
theorem witness_WordClass_due :
    isRequest .wordIdle = false ∧ due (inPhase .term) = some .wordIdle ∧ isRequest (.wordCodeword 0x0F5138) = false ∧
      dueCodeword (inPhase .term) = some (encodeCodeword 0x0F5138) := by decide +kernel
theorem witness_WordClass_not_due :
    isRequest .wordSync = false ∧ due (inPhase .term) ≠ some .wordSync ∧ isRequest (.wordCodeword 0) = false ∧
      due (inPhase .term) ≠ some (.wordCodeword 0) ∧ dueCodeword (inPhase .term) ≠ some (encodeCodeword 0) := by
  decide +kernel
theorem witness_ReservedSelectorRefused :
    Instr.reservedF ∈ [Instr.reserved0, .reservedC, .reservedD, .reservedE, .reservedF] ∧
      State.reset.ph.idle = true := by decide
theorem witness_LongMessageRefused :
    Instr.len 0 0 .text 6 ∈
        [Instr.pack .text 0 6, .tx1 0 0 0 .text 6, .txr 0 0 0 .text 6, .len 0 0 .text 6] ∧
      (State.powerOn small).ph.idle = true ∧ (State.powerOn small).params.maxMsgLen = some 5 ∧ 5 < 6 := by decide
/-- The lowest and highest reserved selectors, each on the port of an idle block. -/
theorem witness_SelectorExaminedFirst :
    let r0 : Request := { Request.zero with op := 0x0, n := 6 }
    let rC : Request := { Request.zero with op := 0xC, n := 6 }
    let rF : Request := { Request.zero with op := 0xF, n := 6 }
    (r0.fits small = true ∧ r0.op = 0x0#4) ∧ (rC.fits small = true ∧ 0xC#4 ≤ rC.op) ∧
      (rF.fits small = true ∧ 0xC#4 ≤ rF.op) ∧
      ({ State.powerOn small with port := some rC } : State).port = some rC ∧
      ({ State.powerOn small with port := some rC } : State).ph.idle = true := by decide
theorem witness_SelectorExaminedFirst_causes :
    (∃ t, step { State.powerOn small with port := some { Request.zero with op := 0x8, n := 6 } } = .next t ∧
        t.err = 2#2) ∧
      ∃ t, step { State.powerOn small with port := some { Request.zero with op := 0xF, n := 6 } } = .next t ∧
        t.err = 1#2 := ⟨⟨_, rfl, rfl⟩, ⟨_, rfl, rfl⟩⟩
theorem witness_NoRequestWhileRunning :
    (inPhase .payload).ph.idle = false ∧ isRequest .reserved0 = true ∧
      ({ inPhase .payload with port := some Request.zero } : State).port = some Request.zero := by decide
theorem witness_StepRuns_request :
    let s : State := { State.reset with port := some Request.zero }
    s.ph.idle = true ∧ s.port = some Request.zero ∧ Request.zero.fits s.params = true := by decide
theorem witness_StepRuns_word :
    (inPhase .term).ph.idle = false ∧ (inPhase .term).port = none ∧ due (inPhase .term) = some .wordIdle := by decide
theorem witness_MapOfOneRepeat :
    17 < preambleLength 0 ∧ preambleLength 1 + 16 < (tx1Words Config.Params.default 1 8 0 .text []).length := by
  decide
theorem witness_MapOfRepeats :
    0 < 1 ∧ 18 + 17 * 0 < (txrWords Config.Params.default 1 8 0 .text []).length := by decide
theorem witness_RunningStepFrame : (inPhase .term).ph.idle = false ∧ (inPhase .term).port = none := by decide
theorem witness_EmittedWords :
    ∃ t, (inPhase .term).ph.idle = false ∧ step (inPhase .term) = .next t ∧
      t.out = (inPhase .term).out ++ [idleWord] := ⟨_, rfl, rfl, rfl⟩

/-- A state that meets the invariant, with a request to CRC10 on the port. -/
def presented : State := { State.reset with port := some { Request.zero with op := 1 } }

theorem presented_meets_invariant : BlockInv presented :=
  ⟨rfl, ⟨by decide, by decide, by decide, by decide⟩, fun h => absurd h (by decide), fun h => absurd h (by decide),
    fun h => absurd h (by decide), fun _ => ⟨fun h => absurd h (by decide), fun h => absurd h (by decide),
      fun h => absurd h (by decide), fun h => absurd h (by decide), fun h => absurd h (by decide),
      fun h => absurd h (by decide)⟩⟩

theorem witness_EveryStepKeepsTheInvariant : ∃ t, BlockInv presented ∧ step presented = .next t :=
  ⟨_, presented_meets_invariant, rfl⟩
theorem witness_HostMovesKeepTheInvariant :
    (∃ t, hostPresent Request.zero presented = .next t) ∧ ∃ t, hostWriteMsg 0 0x41 presented = .next t :=
  ⟨⟨_, rfl⟩, ⟨_, rfl⟩⟩
theorem witness_NoStateCarriesOver :
    let s₂ : State := { inPhase .done with res := 5, out := [idleWord] }
    State.reset.port = none ∧ s₂.port = none ∧ State.reset.params = s₂.params ∧ isRequest (.crc10 1) = true ∧
      (∃ t₁, runsTo (.crc10 1) State.reset t₁) ∧ ∃ t₂, runsTo (.crc10 1) s₂ t₂ :=
  ⟨rfl, rfl, rfl, rfl, ⟨_, 0, _, 0, rfl, Nat.le_refl 0, rfl, rfl⟩, ⟨_, 0, _, 0, rfl, Nat.le_refl 0, rfl, rfl⟩⟩
theorem witness_MessageSpaceLaws :
    Memory.wf [(0, 0x41), (7, 0xFF)] = true ∧ Memory.wf (Memory.write [(0, 0x41)] 0 0) = true := by decide

end Sys2Proof.Tests
end

section
/-! Every word that a step of the sequencer appends to OUT has even parity (20_memory.md rule R62). A step appends the
word of the class that is due, and nothing else; the word of every class has even parity. -/

namespace Sys2Proof.Machine

/-! ### Parity of a codeword (41_codeword_encoder.md rule R131) -/

/-- The parity of a word whose bits above bit 0 are those of `x`, one place up. -/
theorem parityLoop_succ_of_tail {w x : Word} {n : Nat} (h : ∀ i < n, w.getLsbD (i + 1) = x.getLsbD i) :
    parityLoop w (n + 1) = (w.getLsbD 0 ^^ parityLoop x n) := by
  induction n with
  | zero => simp [parityLoop]
  | succ n ih =>
    have hlow := ih fun i hi => h i (by omega)
    rw [parityLoop, hlow, h n (by omega), parityLoop]
    exact Bool.xor_left_comm ..

/-- Above the parity bit of a codeword stand the data and the crc. -/
theorem encodeCodeword_getLsbD_succ (d : BitVec 21) {i : Nat} (hi : i < 31) :
    (encodeCodeword d).getLsbD (i + 1) = ((fullValue d).setWidth 32).getLsbD i := by
  simp only [encodeCodeword, BitVec.getLsbD_or, BitVec.getLsbD_shiftLeft, BitVec.getLsbD_setWidth]
  simp [hi, show i < 32 by omega, show i + 1 < 32 by omega]

/-- The lowest bit of a codeword is the parity of the data and the crc. -/
theorem encodeCodeword_getLsbD_zero (d : BitVec 21) :
    (encodeCodeword d).getLsbD 0 = parity ((fullValue d).setWidth 32) := by
  simp [encodeCodeword]

/-- The parity of a 31-bit value needs no look at bit 31. -/
theorem parity_setWidth_of_31 (v : BitVec 31) : parity (v.setWidth 32) = parityLoop (v.setWidth 32) 31 := by
  have htop : (v.setWidth 32).getLsbD 31 = false := by simp
  rw [parity, parityLoop, htop, Bool.false_xor]

/-- Every codeword has even parity. -/
theorem parity_encodeCodeword (d : BitVec 21) : parity (encodeCodeword d) = false := by
  have hsplit : parity (encodeCodeword d) =
      ((encodeCodeword d).getLsbD 0 ^^ parityLoop ((fullValue d).setWidth 32) 31) :=
    parityLoop_succ_of_tail fun _ => encodeCodeword_getLsbD_succ d
  rw [hsplit, encodeCodeword_getLsbD_zero, parity_setWidth_of_31, Bool.xor_self]

/-- The word of every word class has even parity: the three fixed words, and the codewords. -/
theorem parity_of_encode_eq_word {i : Instr} {w : Word} (h : encode i = .word w) : parity w = false := by
  cases i
  case wordPreamble | wordSync | wordIdle => cases h; decide
  case wordAddress | wordMessage | wordCodeword => cases h; exact parity_encodeCodeword _
  all_goals cases h

/-! ### What each step of the sequencer appends -/

@[simp] theorem preStep_out (s : State) : (preStep s).out = s.out ++ [preambleWord] := rfl
@[simp] theorem sync0Step_out (s : State) : (sync0Step s).out = s.out ++ [syncWord] := rfl
@[simp] theorem prefixStep_out (s : State) : (prefixStep s).out = s.out ++ [idleWord] := rfl
@[simp] theorem addrStep_out (s : State) :
    (addrStep s).out = s.out ++ [addressWord s.req.address s.req.fb] := rfl
@[simp] theorem pendingSyncStep_out (s : State) : (pendingSyncStep s).out = s.out ++ [syncWord] := rfl
@[simp] theorem flushStep_out (s : State) : (flushStep s).out = s.out ++ [messageWord s.work.acc] := rfl
@[simp] theorem termStep_out (s : State) : (termStep s).out = s.out ++ [idleWord] := rfl
@[simp] theorem padStep_out (s : State) : (padStep s).out = s.out ++ [idleWord] := rfl
@[simp] theorem shiftStep_out (s : State) : (shiftStep s).out = s.out := rfl
@[simp] theorem fillStep_out (s : State) : (fillStep s).out = s.out := rfl

@[simp] theorem leaveStep_out (s : State) : (leaveStep s).out = s.out := by
  unfold leaveStep; split <;> simp

@[simp] theorem nextRepeatStep_out (s : State) : (nextRepeatStep s).out = s.out := by
  unfold nextRepeatStep; split <;> simp

/-- A silent step leaves OUT as it is. -/
@[simp] theorem silentStep_out (s : State) : (silentStep s).out = s.out := by
  cases hph : s.ph <;> simp only [silentStep, hph]
  case payload => split_ifs <;> simp
  case pad => exact nextRepeatStep_out s

/-- The high bits stand above three zeros. -/
theorem addressOfHi_getLsbD_add_three (hi : BitVec 18) (i : Nat) :
    (addressOfHi hi).getLsbD (3 + i) = hi.getLsbD i := by
  have happend : (addressOfHi hi).getLsbD (3 + i) = (hi ++ 0#3).getLsbD (3 + i) := rfl
  rw [happend, BitVec.getLsbD_append]
  simp

/-- The address codeword does not depend on the low three bits of the address (R134). -/
theorem addressWord_addressOfHi (a : BitVec 21) (fb : BitVec 2) :
    addressWord (addressOfHi (a.extractLsb' 3 18)) fb = addressWord a fb := by
  have hshift : addressOfHi (a.extractLsb' 3 18) >>> 3 = a >>> 3 := by
    refine BitVec.eq_of_getLsbD_eq fun i _ => ?_
    rw [BitVec.getLsbD_ushiftRight, addressOfHi_getLsbD_add_three, BitVec.getLsbD_extractLsb',
      BitVec.getLsbD_ushiftRight]
    have hbound : a.getLsbD (3 + i) = true → i < 18 := fun h => by
      have := BitVec.lt_of_getLsbD h
      omega
    simpa using hbound
  simp only [addressWord, addressData, hshift]

/-- The meaning of the due class appends one word, the word of that class. -/
theorem exec_due_emits {s t : State} {i : Instr} (hd : due s = some i) (h : exec i s = .next t) :
    ∃ w, encode i = .word w ∧ t.out = s.out ++ [w] := by
  cases hph : s.ph <;> simp only [due, hph, reduceCtorEq] at hd
  case pre =>
    cases hd
    obtain ⟨-, rfl⟩ := execWordPreamble_next.mp h
    exact ⟨_, rfl, preStep_out s⟩
  case sync0 =>
    cases hd
    obtain ⟨-, rfl⟩ := execWordSync_next.mp h
    exact ⟨_, rfl, by simp [hph]⟩
  case idlePrefix | term =>
    cases hd
    obtain ⟨-, rfl⟩ := execWordIdle_next.mp h
    exact ⟨_, rfl, by simp [hph]⟩
  case addr =>
    cases hd
    obtain ⟨-, rfl⟩ := execWordAddress_next.mp h
    exact ⟨_, rfl, by simp [addressWord_addressOfHi]⟩
  case payload =>
    split_ifs at hd
    · cases hd
      obtain ⟨-, rfl⟩ := execWordSync_next.mp h
      exact ⟨_, rfl, by simp [hph]⟩
    · cases hd
      obtain ⟨-, rfl⟩ := execWordMessage_next.mp h
      exact ⟨_, rfl, flushStep_out s⟩
  case pad =>
    split_ifs at hd
    cases hd
    obtain ⟨-, rfl⟩ := execWordIdle_next.mp h
    exact ⟨_, rfl, by simp [hph]⟩

/-- A step of a running phase leaves OUT as it is, or appends the word of the due class. -/
theorem running_step_out {s t : State} (hrun : s.ph.idle = false) (h : step s = .next t) :
    t.out = s.out ∨ ∃ i w, due s = some i ∧ encode i = .word w ∧ t.out = s.out ++ [w] := by
  obtain ⟨hidle, -⟩ | ⟨-, -, i, hd, hx⟩ | ⟨-, -, -, rfl⟩ := step_next h
  · simp [hrun] at hidle
  · obtain ⟨w, henc, hout⟩ := exec_due_emits hd hx
    exact .inr ⟨i, w, hd, henc, hout⟩
  · exact .inl (silentStep_out s)

/-- Settles O56 (R62): the appended word is the word of the due class, and every class's word has even parity. -/
theorem emittedWordsHaveEvenParity : Obligations.EmittedWordsHaveEvenParity := by
  intro s t w hrun hstep hout
  obtain hsame | ⟨i, v, -, henc, hv⟩ := running_step_out hrun hstep
  · simp [hout] at hsame
  · have hvw : v = w := by simpa [hv] using hout
    exact parity_of_encode_eq_word (hvw ▸ henc)

end Sys2Proof.Machine
end

section
/-! The bits of a word of OUT: the fields of a codeword (30_encoding.md rule R81), and where each bit of a message
stands in its message codewords (rules R84 and R85). Both layouts are one fact: payload bit `q` is bit `30 - q mod 20`
of message codeword `q / 20`, and every position behind the payload is 0. -/

namespace Sys2Proof.Machine

/-! ### The fields of a codeword (R81) -/

/-- The 31-bit value of a codeword is the data followed by the crc (R130). -/
theorem fullValue_eq_append (d : BitVec 21) : fullValue d = d ++ crc d := by
  refine BitVec.eq_of_getLsbD_eq fun i hi => ?_
  have happend : (d ++ crc d).getLsbD i = if i < 10 then (crc d).getLsbD i else d.getLsbD (i - 10) :=
    BitVec.getLsbD_append
  simp only [happend, fullValue, BitVec.getLsbD_or, BitVec.getLsbD_shiftLeft, BitVec.getLsbD_setWidth, hi,
    decide_true, Bool.true_and]
  split_ifs with hlow
  · simp [hlow]
  · have hcrc : (crc d).getLsbD i = false := BitVec.getLsbD_of_ge _ _ (by omega)
    simp [hlow, hcrc, show i - 10 < 31 by omega]

/-- Bits 10:1 of a codeword are the crc, its bits 31:11 the data. -/
theorem encodeCodeword_getLsbD_succ_eq_ite (d : BitVec 21) {i : Nat} (hi : i < 31) :
    (encodeCodeword d).getLsbD (i + 1) = if i < 10 then (crc d).getLsbD i else d.getLsbD (i - 10) := by
  rw [encodeCodeword_getLsbD_succ d hi, fullValue_eq_append, BitVec.getLsbD_setWidth]
  simpa [show i < 32 by omega] using BitVec.getLsbD_append (x := d) (y := crc d)

theorem encodeCodeword_getLsbD_data (d : BitVec 21) {i : Nat} (hi : i < 21) :
    (encodeCodeword d).getLsbD (11 + i) = d.getLsbD i := by
  have h := encodeCodeword_getLsbD_succ_eq_ite d (i := 10 + i) (by omega)
  simpa [show 10 + i + 1 = 11 + i by omega] using h

theorem encodeCodeword_getLsbD_crc (d : BitVec 21) {i : Nat} (hi : i < 10) :
    (encodeCodeword d).getLsbD (1 + i) = (crc d).getLsbD i := by
  rw [Nat.add_comm, encodeCodeword_getLsbD_succ_eq_ite d (by omega), if_pos hi]

/-- Settles O11 (R81): the 31 bits above the parity are the data followed by the crc. -/
theorem codewordFields : Obligations.CodewordFields := by
  intro d
  refine ⟨BitVec.eq_of_getLsbD_eq fun i hi => ?_, encodeCodeword_getLsbD_data d (i := 20) (by omega),
    BitVec.eq_of_getLsbD_eq fun i hi => ?_, ?_⟩
  · simp [hi, encodeCodeword_getLsbD_data d hi]
  · simp [hi, encodeCodeword_getLsbD_crc d hi]
  · rw [encodeCodeword_getLsbD_zero, fullValue_eq_append]

/-! ### The value of a bit string, and a group of one (R12, R158, R159) -/

theorem bitsValue_concat (bits : List Bool) (b : Bool) :
    bitsValue (bits ++ [b]) = (bitsValue bits <<< 1) ||| (BitVec.ofBool b).setWidth 20 := by
  simp [bitsValue]

/-- The last bit of a bit string is bit 0 of its value. -/
theorem bitsValue_getLsbD (bits : List Bool) {i : Nat} (hi : i < 20) :
    (bitsValue bits).getLsbD i = bits.reverse.getD i false := by
  induction bits using List.reverseRecOn generalizing i with
  | nil => simp [bitsValue]
  | append_singleton bits b ih =>
    rw [bitsValue_concat, List.reverse_concat, BitVec.getLsbD_or, BitVec.getLsbD_shiftLeft]
    cases i with
    | zero => simp
    | succ i => simp [hi, ih (i := i) (by omega)]

/-- The first of twenty bits is bit 19 of the value (R12). -/
theorem bitsValue_getLsbD_of_length {bits : List Bool} (hlen : bits.length = 20) {j : Nat} (hj : j < 20) :
    (bitsValue bits).getLsbD (19 - j) = bits.getD j false := by
  rw [bitsValue_getLsbD bits (by omega), List.getD_reverse _ (by omega), hlen,
    show 20 - 1 - (19 - j) = j by omega]

/-- Zero fill is not seen by a read that takes 0 behind the end. -/
theorem getD_append_replicate_false (bits : List Bool) (n j : Nat) :
    (bits ++ List.replicate n false).getD j false = bits.getD j false := by
  by_cases hin : j < bits.length
  · rw [List.getD_append _ _ _ _ hin]
  · rw [List.getD_append_right _ _ _ _ (by omega), List.getD_eq_getElem?_getD, List.getElem?_getD_replicate_default_eq,
      List.getD_eq_default _ _ (by omega)]

/-- Bit `q` of a bit string is bit `19 - q mod 20` of its group `q / 20`; the fill behind the string is 0. -/
theorem groupAt_getLsbD (bits : List Bool) (q : Nat) :
    (groupAt bits (q / 20)).getLsbD (19 - q % 20) = bits.getD q false := by
  have hmod : q % 20 < 20 := Nat.mod_lt q (by decide)
  simp only [groupAt]
  rw [bitsValue_getLsbD_of_length (by simp) hmod, getD_append_replicate_false]
  simp [List.getElem?_drop, hmod, Nat.div_add_mod]

/-! ### A payload bit in its message codeword (R83, R84) -/

theorem messageData_getLsbD (g : BitVec 20) {i : Nat} (hi : i < 20) : (messageData g).getLsbD i = g.getLsbD i := by
  have hflag : ∀ j < 20, (0x100000#21).getLsbD j = false := by decide
  rw [messageData, BitVec.getLsbD_or, hflag i hi, Bool.false_or, BitVec.getLsbD_setWidth]
  simp [show i < 21 by omega]

/-- Bits 30:11 of a message codeword are its group. -/
theorem messageWord_getLsbD (g : BitVec 20) {j : Nat} (hj : j < 20) :
    (messageWord g).getLsbD (30 - j) = g.getLsbD (19 - j) := by
  rw [messageWord, show 30 - j = 11 + (19 - j) by omega, encodeCodeword_getLsbD_data _ (by omega),
    messageData_getLsbD _ (by omega)]

/-- Payload bit `q` stands in bit `30 - q mod 20` of message codeword `q / 20`, and behind the payload stands 0. -/
theorem payloadWords_getLsbD (p : Config.Params) (mode : Mode) (msg : List Byte) (q : Nat) :
    ((payloadWords p mode msg).getD (q / 20) 0).getLsbD (30 - q % 20) = (payloadBits p mode msg).getD q false := by
  generalize hbits : payloadBits p mode msg = bits
  by_cases hin : q / 20 < groupCount bits.length
  · have hword : (payloadWords p mode msg).getD (q / 20) 0 = messageWord (groupAt bits (q / 20)) := by
      simp [payloadWords, groups, hbits, hin]
    rw [hword, messageWord_getLsbD _ (Nat.mod_lt q (by decide)), groupAt_getLsbD]
  · have hword : (payloadWords p mode msg).getD (q / 20) 0 = 0 :=
      List.getD_eq_default _ _ (by simpa [payloadWords, groups, hbits] using hin)
    have hlen : bits.length ≤ q := by
      simp only [groupCount] at hin
      omega
    rw [hword, List.getD_eq_default _ _ hlen]
    simp

/-! ### The bits of a message (R150, R156) -/

@[simp] theorem charBits_length (p : Config.Params) (mode : Mode) (c : Byte) :
    (charBits p mode c).length = unitBits mode := by
  simp [charBits]

theorem payloadBits_cons (p : Config.Params) (mode : Mode) (c : Byte) (msg : List Byte) :
    payloadBits p mode (c :: msg) = charBits p mode c ++ payloadBits p mode msg := List.flatMap_cons

@[simp] theorem payloadBits_length (p : Config.Params) (mode : Mode) (msg : List Byte) :
    (payloadBits p mode msg).length = unitBits mode * msg.length := by
  induction msg with
  | nil => rfl
  | cons c msg ih =>
    rw [payloadBits_cons, List.length_append, charBits_length, ih, List.length_cons, Nat.mul_succ, Nat.add_comm]

/-- Payload bit `unitBits mode * c + b` is bit `b` of character `c`. -/
theorem payloadBits_getD (p : Config.Params) (mode : Mode) {msg : List Byte} {c b : Nat} (hc : c < msg.length)
    (hb : b < unitBits mode) :
    (payloadBits p mode msg).getD (unitBits mode * c + b) false = charBit p mode (msg.getD c 0) b := by
  induction msg generalizing c with
  | nil => cases hc
  | cons ch msg ih =>
    rw [payloadBits_cons]
    cases c with
    | zero =>
      rw [List.getD_append _ _ _ _ (by simpa using hb)]
      simp [charBits, hb]
    | succ c =>
      have hpos : unitBits mode * (c + 1) + b = unitBits mode + (unitBits mode * c + b) := by ring
      rw [List.getD_append_right _ _ _ _ (by simp [hpos]), charBits_length, hpos, Nat.add_sub_cancel_left,
        ih (Nat.lt_of_succ_lt_succ hc), List.getD_cons_succ]

/-! ### The layouts of a message's groups (R84, R85) -/

/-- The bits of a character of the message, where they stand in the message codewords. -/
theorem payloadWords_getLsbD_char (p : Config.Params) (mode : Mode) {msg : List Byte} {c b : Nat}
    (hc : c < msg.length) (hb : b < unitBits mode) :
    ((payloadWords p mode msg).getD ((unitBits mode * c + b) / 20) 0).getLsbD (30 - (unitBits mode * c + b) % 20) =
      charBit p mode (msg.getD c 0) b := by
  rw [payloadWords_getLsbD, payloadBits_getD p mode hc hb]

/-- The bits behind the last character of the message. -/
theorem payloadWords_getLsbD_fill (p : Config.Params) (mode : Mode) {msg : List Byte} {q : Nat}
    (hq : unitBits mode * msg.length ≤ q) :
    ((payloadWords p mode msg).getD (q / 20) 0).getLsbD (30 - q % 20) = false := by
  rw [payloadWords_getLsbD, List.getD_eq_default _ _ (by simpa using hq)]

theorem charBit_text (p : Config.Params) (c : Byte) {b : Nat} (hb : b < 7) :
    charBit p .text c b = c.getLsbD (6 - b) := by
  simp [charBit, charValue, unitBits, show 6 - b < 7 by omega]

theorem charBit_numeric (p : Config.Params) (c : Byte) {i : Nat} (hi : i < 4) :
    charBit p .numeric c (3 - i) = (rev4 (numCode p c)).getLsbD i := by
  simp [charBit, charValue, unitBits, show 3 - (3 - i) = i by omega, show i < 7 by omega]

/-- Settles O22 (R84): the placing of payload bits, read at seven bits per character. -/
theorem textGroupLayout : Obligations.TextGroupLayout := by
  intro p msg
  refine ⟨fun c b hc hb => ?_, fun q hq _ => payloadWords_getLsbD_fill p .text hq⟩
  exact (payloadWords_getLsbD_char p .text hc hb).trans (charBit_text p _ hb)

/-- Bit `i` of field `k` of message codeword `g`, as bit `3 - i` of the four bits of character `5g + k`. -/
theorem numeric_field_bit (ws : List Word) (g : Nat) {k i : Nat} (hk : k < 5) (hi : i < 4) :
    ((ws.getD g 0).extractLsb' (27 - 4 * k) 4).getLsbD i =
      (ws.getD ((4 * (5 * g + k) + (3 - i)) / 20) 0).getLsbD (30 - (4 * (5 * g + k) + (3 - i)) % 20) := by
  rw [BitVec.getLsbD_extractLsb', show (4 * (5 * g + k) + (3 - i)) / 20 = g by omega,
    show 30 - (4 * (5 * g + k) + (3 - i)) % 20 = 27 - 4 * k + i by omega]
  simp [hi]

/-- Settles O23 (R85): the placing of payload bits, read at four bits per character, which divide a group. -/
theorem numericGroupLayout : Obligations.NumericGroupLayout := by
  intro p msg g k hk
  refine ⟨fun hin => BitVec.eq_of_getLsbD_eq fun i hi => ?_, fun hout _ => BitVec.eq_of_getLsbD_eq fun i hi => ?_⟩
  · rw [numeric_field_bit _ g hk hi]
    exact (payloadWords_getLsbD_char p .numeric hin (Nat.sub_lt_succ 3 i)).trans (charBit_numeric p _ hi)
  · rw [numeric_field_bit _ g hk hi, BitVec.getLsbD_zero]
    refine payloadWords_getLsbD_fill p .numeric ?_
    simp only [unitBits]
    omega

end Sys2Proof.Machine
end

section
/-! The CRC/BCH parity generator (40_crc_parity.md): `polymod` is the division by the generator over GF(2) (rule R110),
so the syndrome of a codeword is zero (rule R113); the parity is the count of ones modulo 2 (rule R112). -/

namespace Sys2Proof.Machine

/-! ### The multiples of the generator (R110) -/

/-- The generator has degree 10, so shifted by `n` it has no bit above `n + 10`. -/
theorem generator_shift_getLsbD_of_gt {n i : Nat} (hi : n + 10 < i) :
    (generator.setWidth 31 <<< n).getLsbD i = false := by
  have hdeg : generator.getLsbD (i - n) = false := BitVec.getLsbD_of_ge _ _ (by omega)
  simp [hdeg]

/-- The generator is monic: shifted by `n` it has bit `n + 10`. -/
theorem generator_shift_getLsbD_top {n : Nat} (hn : n < 21) :
    (generator.setWidth 31 <<< n).getLsbD (n + 10) = true := by
  simp [generator, show n + 10 < 31 by omega]

/-- A sum of multiples `generator << i` with `i < n` has degree below `n + 10`. -/
theorem generatorSum_getLsbD_of_ge (q : BitVec 21) {n i : Nat} (hi : n + 10 ≤ i) :
    (generatorSum q n).getLsbD i = false := by
  induction n with
  | zero => simp [generatorSum]
  | succ n ih =>
    have hterm : (if q.getLsbD n then generator.setWidth 31 <<< n else 0).getLsbD i = false := by
      split
      · exact generator_shift_getLsbD_of_gt (by omega)
      · exact BitVec.getLsbD_zero
    rw [generatorSum, BitVec.getLsbD_xor, hterm, ih (by omega), Bool.xor_false]

/-- The sum over the bits below `n` sees no other bit of the quotient. -/
theorem generatorSum_congr {p q : BitVec 21} {n : Nat} (h : ∀ i < n, p.getLsbD i = q.getLsbD i) :
    generatorSum p n = generatorSum q n := by
  induction n with
  | zero => rfl
  | succ n ih => rw [generatorSum, generatorSum, h n (by omega), ih fun i hi => h i (by omega)]

/-- A bit can be put above the low `n` bits of a quotient. -/
theorem exists_quotient_with_bit (q : BitVec 21) {n : Nat} (hn : n < 21) (b : Bool) :
    ∃ p : BitVec 21, p.getLsbD n = b ∧ ∀ i < n, p.getLsbD i = q.getLsbD i := by
  refine ⟨(BitVec.cons b (q.setWidth n)).setWidth 21, by simp [hn, BitVec.getElem_cons], fun i hi => ?_⟩
  simp [BitVec.getLsbD_cons, hi, hi.ne, show i < 21 by omega]

/-! ### The division loop (R110) -/

/-- The division takes a multiple of the generator away and leaves the rest: every iteration removes the top term,
which is there exactly when the quotient has its bit. -/
theorem polymodLoop_generatorSum_xor (q : BitVec 21) (r : BitVec 10) {n : Nat} (hn : n ≤ 21) :
    polymodLoop n (generatorSum q n ^^^ r.setWidth 31) = r.setWidth 31 := by
  induction n with
  | zero => simp [polymodLoop, generatorSum]
  | succ n ih =>
    have hlow : (generatorSum q n).getLsbD (n + 10) = false := generatorSum_getLsbD_of_ge q le_rfl
    have htop : (generatorSum q (n + 1) ^^^ r.setWidth 31).getLsbD (n + 10) = q.getLsbD n := by
      have hrest : (r.setWidth 31).getLsbD (n + 10) = false := by simp
      rw [generatorSum, BitVec.getLsbD_xor, BitVec.getLsbD_xor, hlow, hrest, Bool.xor_false, Bool.xor_false]
      split
      next hq => rw [hq, generator_shift_getLsbD_top (by omega)]
      next hq => simpa using hq
    rw [polymodLoop, htop, generatorSum]
    cases q.getLsbD n with
    | false => simpa using ih (by omega)
    | true =>
      rw [if_pos rfl, if_pos rfl, BitVec.xor_assoc (generator.setWidth 31 <<< n), BitVec.xor_comm, ← BitVec.xor_assoc,
        BitVec.xor_self, BitVec.zero_xor]
      exact ih (by omega)

/-- One iteration clears the top bit of a value of degree at most `n + 10`. -/
theorem reduce_getLsbD_of_ge {v : BitVec 31} {n : Nat} (hn : n < 21)
    (hv : ∀ i, n + 11 ≤ i → v.getLsbD i = false) {i : Nat} (hi : n + 10 ≤ i) :
    (if v.getLsbD (n + 10) then v ^^^ (generator.setWidth 31 <<< n) else v).getLsbD i = false := by
  obtain rfl | hgt := hi.eq_or_lt
  · split
    next hb => rw [BitVec.getLsbD_xor, hb, generator_shift_getLsbD_top hn, Bool.xor_self]
    next hb => simpa using hb
  · have hvi := hv i hgt
    split
    · rw [BitVec.getLsbD_xor, hvi, generator_shift_getLsbD_of_gt hgt, Bool.xor_self]
    · exact hvi

/-- The division has a quotient: its bits are the top bits that the iterations find. -/
theorem exists_quotient_polymodLoop {n : Nat} (hn : n ≤ 21) (v : BitVec 31)
    (hv : ∀ i, n + 10 ≤ i → v.getLsbD i = false) :
    ∃ q : BitVec 21, v = generatorSum q n ^^^ ((polymodLoop n v).setWidth 10).setWidth 31 := by
  induction n generalizing v with
  | zero =>
    refine ⟨0, BitVec.eq_of_getLsbD_eq fun i hi => ?_⟩
    by_cases hlow : i < 10
    · simp [generatorSum, polymodLoop, hlow, hi]
    · simp [generatorSum, polymodLoop, hlow, hv i (by omega)]
  | succ n ih =>
    obtain ⟨q, hq⟩ := ih (by omega) _ fun _ => reduce_getLsbD_of_ge hn fun i hi => hv i (by omega)
    obtain ⟨p, hbit, hlow⟩ := exists_quotient_with_bit q hn (v.getLsbD (n + 10))
    refine ⟨p, ?_⟩
    rw [generatorSum, generatorSum_congr hlow, BitVec.xor_assoc, polymodLoop, ← hq, hbit]
    split
    · rw [BitVec.xor_comm v, ← BitVec.xor_assoc, BitVec.xor_self, BitVec.zero_xor]
    · exact BitVec.zero_xor.symm

/-- The remainder of a multiple of the generator plus a rest of degree below 10 is the rest. -/
theorem polymod_generatorMultiple_xor (q : BitVec 21) (r : BitVec 10) :
    polymod (generatorMultiple q ^^^ r.setWidth 31) = r := by
  rw [polymod, generatorMultiple, polymodLoop_generatorSum_xor q r le_rfl]
  exact BitVec.setWidth_setWidth_of_le r (by decide)

/-- Every value is a multiple of the generator plus its `polymod`. -/
theorem exists_eq_generatorMultiple_xor_polymod (v : BitVec 31) :
    ∃ q : BitVec 21, v = generatorMultiple q ^^^ (polymod v).setWidth 31 :=
  exists_quotient_polymodLoop le_rfl v fun i hi => BitVec.getLsbD_of_ge v i hi

/-- Settles O7 (R110): the division has a quotient, and takes every multiple of the generator away. -/
theorem polymodIsTheRemainder : Obligations.PolymodIsTheRemainder := by
  intro v r
  constructor
  · rintro rfl
    exact exists_eq_generatorMultiple_xor_polymod v
  · rintro ⟨q, rfl⟩
    exact polymod_generatorMultiple_xor q r

/-! ### The syndrome of a codeword (R113) -/

/-- The crc stands below the data, so the two are joined by exclusive-or as well (R130). -/
theorem fullValue_eq_xor (d : BitVec 21) : fullValue d = (d.setWidth 31 <<< 10) ^^^ (crc d).setWidth 31 := by
  refine BitVec.eq_of_getLsbD_eq fun i _ => ?_
  rw [fullValue, BitVec.getLsbD_or, BitVec.getLsbD_xor]
  by_cases hlow : i < 10
  · simp [hlow]
  · have hcrc : ((crc d).setWidth 31).getLsbD i = false := by simp [BitVec.getLsbD_of_ge _ i (not_lt.mp hlow)]
    rw [hcrc, Bool.or_false, Bool.xor_false]

/-- The value of a codeword is a multiple of the generator. -/
theorem exists_fullValue_eq_generatorMultiple (d : BitVec 21) : ∃ q, fullValue d = generatorMultiple q := by
  obtain ⟨q, hq⟩ := exists_eq_generatorMultiple_xor_polymod (d.setWidth 31 <<< 10)
  refine ⟨q, ?_⟩
  calc fullValue d = (d.setWidth 31 <<< 10) ^^^ (crc d).setWidth 31 := fullValue_eq_xor d
    _ = (generatorMultiple q ^^^ (crc d).setWidth 31) ^^^ (crc d).setWidth 31 := congrArg (· ^^^ _) hq
    _ = generatorMultiple q := by rw [BitVec.xor_assoc, BitVec.xor_self, BitVec.xor_zero]

theorem polymod_fullValue (d : BitVec 21) : polymod (fullValue d) = 0 := by
  obtain ⟨q, hq⟩ := exists_fullValue_eq_generatorMultiple d
  simpa [hq] using polymod_generatorMultiple_xor q 0

/-- Without its parity bit a codeword is its 31-bit value. -/
theorem encodeCodeword_extractLsb'_one (d : BitVec 21) : (encodeCodeword d).extractLsb' 1 31 = fullValue d := by
  refine BitVec.eq_of_getLsbD_eq fun i hi => ?_
  rw [BitVec.getLsbD_extractLsb', Nat.add_comm, encodeCodeword_getLsbD_succ d hi]
  simp [hi, show i < 32 by omega]

/-- Settles O8 (R113): the value of a codeword is a multiple of the generator, so it leaves no remainder. -/
theorem syndromeOfEveryCodewordIsZero : Obligations.SyndromeOfEveryCodewordIsZero := by
  intro d
  refine ⟨polymod_fullValue d, ?_⟩
  rw [syndrome, encodeCodeword_extractLsb'_one, polymod_fullValue]

/-! ### The operations CRC10 and PAR32 (R111, R112) -/

/-- A scalar operation made in READY or DONE completes with its result (R262). -/
theorem scalar_of_idle (v : Nat) {s : State} (h : s.ph.idle = true) : scalar v s = .next (afterScalar v s) :=
  scalar_next.mpr ⟨h, rfl⟩

/-- The parity is the number of one bits modulo 2 (R112). -/
theorem parityLoop_toNat (x : Word) (n : Nat) : (parityLoop x n).toNat = onesCount x n % 2 := by
  induction n with
  | zero => rfl
  | succ n ih =>
    rw [parityLoop, onesCount, Nat.add_mod, ← ih]
    cases x.getLsbD n <;> cases parityLoop x n <;> rfl

/-- Settles O14 (R112): PAR32 is a scalar operation, and the parity counts the ones. -/
theorem par32Result : Obligations.Par32Result := by
  intro s x hidle
  rw [← parityLoop_toNat x 32]
  exact scalar_of_idle _ hidle

/-- CRC10 completes with the crc of its operand (R111). -/
theorem exec_crc10_of_idle (d : BitVec 21) {s : State} (h : s.ph.idle = true) :
    exec (.crc10 d) s = .next (afterScalar (crc d).toNat s) :=
  scalar_of_idle _ h

theorem crc_zero : crc 0 = 0 := by decide +kernel

/-- The crc of all ones is all ones (R111). -/
theorem crc_allOnes : crc 0x1FFFFF = 0x3FF := by decide +kernel

/-- The crc of 1 is the generator without its top term (R111). -/
theorem crc_one : crc 1 = 0x369 := by decide +kernel

/-- Settles O13 (R111): CRC10 is a scalar operation; the corner cases are values of `crc`. -/
theorem crc10Result : Obligations.Crc10Result := by
  refine ⟨fun s d => exec_crc10_of_idle d, fun s hidle => ⟨?_, ?_, ?_⟩⟩
  · rw [exec_crc10_of_idle _ hidle, crc_zero]; rfl
  · rw [exec_crc10_of_idle _ hidle, crc_allOnes]; rfl
  · rw [exec_crc10_of_idle _ hidle, crc_one]; rfl

end Sys2Proof.Machine
end

section
/-! The codeword encoder (41_codeword_encoder.md): the value of a codeword and its weight (rules R130 and R131), the
data words it is given (rules R133 to R135), and its four operations ENCW, AOFF, ADDRW, MSGW. -/

namespace Sys2Proof.Machine

/-! ### The number of one bits -/

/-- The count of the low `n` bits sees no other bit, and not the width. -/
theorem onesCount_congr {v w : Nat} {x : BitVec v} {y : BitVec w} {n : Nat}
    (h : ∀ i < n, x.getLsbD i = y.getLsbD i) : onesCount x n = onesCount y n := by
  induction n with
  | zero => rfl
  | succ n ih => rw [onesCount, onesCount, h n (by omega), ih fun i hi => h i (by omega)]

/-- The ones of two values joined are the ones of each. -/
theorem onesCount_append {v w : Nat} (x : BitVec v) (y : BitVec w) (n : Nat) :
    onesCount (x ++ y) (w + n) = onesCount x n + onesCount y w := by
  induction n with
  | zero =>
    have hlow : onesCount (x ++ y) w = onesCount y w :=
      onesCount_congr fun i hi => by rw [BitVec.getLsbD_append, if_pos hi]
    simpa [onesCount] using hlow
  | succ n ih =>
    have hbit : (x ++ y).getLsbD (w + n) = x.getLsbD n := by simp [BitVec.getLsbD_append]
    rw [← Nat.add_assoc, onesCount, onesCount, ih, hbit, Nat.add_assoc]

/-! ### The value and the weight of a codeword (R130, R131) -/

/-- The 31-bit value is the data above the crc. -/
theorem fullValue_toNat (d : BitVec 21) : (fullValue d).toNat = d.toNat * 1024 + (crc d).toNat := by
  have happend : (d ++ crc d).toNat = d.toNat <<< 10 ||| (crc d).toNat := BitVec.toNat_append ..
  rw [fullValue_eq_append, happend, ← Nat.shiftLeft_add_eq_or_of_lt (crc d).isLt, Nat.shiftLeft_eq]

/-- The parity of a codeword's 31-bit value counts the ones of the data and of the crc. -/
theorem parity_fullValue_toNat (d : BitVec 21) :
    (parity ((fullValue d).setWidth 32)).toNat = (onesCount d 21 + onesCount (crc d) 10) % 2 := by
  have hlow : onesCount ((fullValue d).setWidth 32) 31 = onesCount (d ++ crc d) (10 + 21) :=
    onesCount_congr fun i hi => by
      rw [BitVec.getLsbD_setWidth, decide_eq_true (by omega), Bool.true_and, fullValue_eq_append]
  rw [parity_setWidth_of_31, parityLoop_toNat, hlow, onesCount_append]

/-- The value of a codeword: its 31-bit value above its parity. -/
theorem encodeCodeword_toNat_eq_fullValue (d : BitVec 21) :
    (encodeCodeword d).toNat = (fullValue d).toNat * 2 + (parity ((fullValue d).setWidth 32)).toNat := by
  have hfull := (fullValue d).isLt
  have hbit : (parity ((fullValue d).setWidth 32)).toNat < 2 ^ 1 := Bool.toNat_lt _
  have hshift : (fullValue d).toNat <<< 1 < 2 ^ 32 := by omega
  rw [encodeCodeword, BitVec.toNat_or, BitVec.toNat_shiftLeft, BitVec.toNat_setWidth_of_le (by decide),
    BitVec.toNat_setWidth_of_le (by decide), BitVec.toNat_ofBool, Nat.mod_eq_of_lt hshift,
    ← Nat.shiftLeft_add_eq_or_of_lt hbit, Nat.shiftLeft_eq, Nat.pow_one]

/-- The value of a codeword: data, crc, parity (R130). -/
theorem encodeCodeword_toNat (d : BitVec 21) :
    (encodeCodeword d).toNat =
      d.toNat * 2048 + (crc d).toNat * 2 + (onesCount d 21 + onesCount (crc d) 10) % 2 := by
  rw [encodeCodeword_toNat_eq_fullValue, fullValue_toNat, parity_fullValue_toNat]
  omega

/-- Settles O10 (R131): the parity of a codeword is even, and the parity counts the ones. -/
theorem codewordsHaveEvenWeight : Obligations.CodewordsHaveEvenWeight := by
  intro d
  have hcount : (parity (encodeCodeword d)).toNat = onesCount (encodeCodeword d) 32 % 2 := parityLoop_toNat _ 32
  refine ⟨parity_encodeCodeword d, ?_⟩
  rw [← hcount, parity_encodeCodeword, Bool.toNat_false]

/-! ### The data words and the slot of an address (R90 to R92) -/

/-- The slot of an address is twice its low three bits (R92, R133). -/
theorem addressOffset_toNat (a : BitVec 21) : (addressOffset a).toNat = a.toNat % 8 * 2 := by
  have hlow : a.toNat &&& 7 = a.toNat % 8 := Nat.and_two_pow_sub_one_eq_mod a.toNat 3
  have hand : (a &&& 7#21).toNat = a.toNat % 8 := by rw [BitVec.toNat_and]; exact hlow
  rw [addressOffset, BitVec.toNat_setWidth, BitVec.toNat_mul, hand, BitVec.toNat_ofNat]
  omega

/-- The data of an address codeword: the high address bits above FB (R90). -/
theorem addressData_eq_ofNat (a : BitVec 21) (fb : BitVec 2) :
    addressData a fb = BitVec.ofNat 21 (a.toNat / 8 * 4 + fb.toNat) := by
  refine BitVec.eq_of_toNat_eq ?_
  have ha := a.isLt
  have hhigh : ((a >>> 3) <<< 2).toNat = (a.toNat / 8) <<< 2 := by
    rw [BitVec.toNat_shiftLeft, BitVec.toNat_ushiftRight, Nat.shiftRight_eq_div_pow, Nat.shiftLeft_eq]
    omega
  have hfb := fb.isLt
  rw [addressData, BitVec.toNat_or, hhigh, BitVec.toNat_setWidth_of_le (by decide),
    ← Nat.shiftLeft_add_eq_or_of_lt hfb, Nat.shiftLeft_eq, BitVec.toNat_ofNat]
  omega

/-- The role flag of an address codeword is clear (R89, R90). -/
theorem addressWord_getLsbD_flag (a : BitVec 21) (fb : BitVec 2) : (addressWord a fb).getLsbD 31 = false := by
  rw [addressWord, Laws.flag_encodeCodeword]
  simp [addressData]

/-- Eight consecutive addresses share a codeword (R134). -/
theorem addressWord_congr {a b : BitVec 21} (h : a.toNat / 8 = b.toNat / 8) (fb : BitVec 2) :
    addressWord a fb = addressWord b fb := by
  rw [addressWord, addressWord, addressData_eq_ofNat, addressData_eq_ofNat, h]

/-- The data of a message codeword: the group below the role flag (R91). -/
theorem messageData_eq_ofNat (g : BitVec 20) : messageData g = BitVec.ofNat 21 (0x100000 + g.toNat) := by
  refine BitVec.eq_of_toNat_eq ?_
  have hor : 0x100000 ||| g.toNat = 0x100000 + g.toNat := (Nat.shiftLeft_add_eq_or_of_lt g.isLt 1).symm
  rw [messageData, BitVec.toNat_or, BitVec.toNat_setWidth_of_le (by decide), BitVec.toNat_ofNat, BitVec.toNat_ofNat,
    ← hor, Nat.mod_eq_of_lt (by decide)]
  omega

/-- The role flag of a message codeword is set (R89, R91). -/
theorem messageWord_getLsbD_flag (g : BitVec 20) : (messageWord g).getLsbD 31 = true := by
  rw [messageWord, Laws.flag_encodeCodeword]
  simp [messageData]

/-! ### The operations ENCW, AOFF, ADDRW, MSGW (R130, R133 to R135) -/

section
variable {s : State} {v : Nat}

/-- ENCW completes with the codeword of its operand (R130). -/
theorem exec_encw_of_idle {d : BitVec 21} (h : s.ph.idle = true) (hv : (encodeCodeword d).toNat = v) :
    exec (.encw d) s = .next (afterScalar v s) :=
  hv ▸ scalar_of_idle _ h

/-- AOFF completes with the slot of its address (R133). -/
theorem exec_aoff_of_idle {a : BitVec 21} (h : s.ph.idle = true) (hv : (addressOffset a).toNat = v) :
    exec (.aoff a) s = .next (afterScalar v s) :=
  hv ▸ scalar_of_idle _ h

/-- ADDRW completes with the address codeword (R134). -/
theorem exec_addrw_of_idle {a : BitVec 21} {fb : BitVec 2} (h : s.ph.idle = true)
    (hv : (addressWord a fb).toNat = v) : exec (.addrw a fb) s = .next (afterScalar v s) :=
  hv ▸ scalar_of_idle _ h

/-- MSGW completes with the message codeword (R135). -/
theorem exec_msgw_of_idle {g : BitVec 20} (h : s.ph.idle = true) (hv : (messageWord g).toNat = v) :
    exec (.msgw g) s = .next (afterScalar v s) :=
  hv ▸ scalar_of_idle _ h

end

/-- Settles O15 (R130): the value of a codeword is its data, crc and parity; the corner cases are values of the
encoder. -/
theorem encwResult : Obligations.EncwResult := by
  refine ⟨fun s d hidle => exec_encw_of_idle hidle (encodeCodeword_toNat d), fun s hidle => ⟨?_, ?_, ?_, ?_, ?_⟩⟩
  all_goals exact exec_encw_of_idle hidle (by decide +kernel)

/-- Settles O16 (R133): the slot is twice the low three address bits, so one of the eight even numbers below 16. -/
theorem aoffResult : Obligations.AoffResult := by
  intro s a hidle
  have heven : ∀ k < 8, k * 2 ∈ [0, 2, 4, 6, 8, 10, 12, 14] := by decide
  exact ⟨exec_aoff_of_idle hidle (addressOffset_toNat a), heven _ (Nat.mod_lt _ (by decide))⟩

/-- Settles O17 (R134): the codeword's data is the high address bits above FB, so the low three do not matter; the
corner cases are values of the encoder. -/
theorem addrwResult : Obligations.AddrwResult := by
  refine ⟨fun s a fb hidle => ?_, fun s a b fb hab => ?_, fun s hidle => ⟨?_, ?_, ?_, ?_, ?_, ?_⟩⟩
  · rw [← addressData_eq_ofNat]
    exact ⟨exec_addrw_of_idle hidle rfl, addressWord_getLsbD_flag a fb⟩
  · exact congrArg (fun w : Word => scalar w.toNat s) (addressWord_congr hab fb)
  all_goals exact exec_addrw_of_idle hidle (by decide +kernel)

/-- Settles O18 (R135): the codeword's data is the group below the set role flag; the corner cases are values of the
encoder. -/
theorem msgwResult : Obligations.MsgwResult := by
  refine ⟨fun s g hidle => ?_, fun s hidle => ⟨?_, ?_, ?_⟩⟩
  · rw [← messageData_eq_ofNat]
    exact ⟨exec_msgw_of_idle hidle rfl, messageWord_getLsbD_flag g⟩
  all_goals exact exec_msgw_of_idle hidle (by decide +kernel)

end Sys2Proof.Machine
end

section
/-! The payload bit-packer (42_payload_packer.md): the codes of NUMD (rules R152 to R155), the number of message codewords
(rule R160), and the steps of phase PAYLOAD that flush a full group and fill the last partial one (rules R157 and R158). -/

namespace Sys2Proof.Machine

/-! ### The code of a character and its mirror (R152, R153) -/

/-- The reversal, bit by bit, is the mirror (R153). -/
theorem rev4_toNat (n : BitVec 4) : (rev4 n).toNat = mirror4 n := by
  revert n
  decide

section
variable (p : Config.Params) {c : Byte}

theorem numCode_of_zero (h : c = 0x30) : numCode p c = 0x0 := by subst h; rfl

theorem numCode_of_nine (h : c = 0x39) : numCode p c = 0x9 := by subst h; rfl

theorem numCode_of_space (h : c = 0x20) : numCode p c = 0x3 := by subst h; rfl

theorem numCode_of_u (h : c = 0x75 ∨ c = 0x55) : numCode p c = 0xD := by obtain rfl | rfl := h <;> rfl

theorem numCode_of_dash (h : c = 0x2D ∨ c = 0x5F) : numCode p c = 0xB := by obtain rfl | rfl := h <;> rfl

theorem numCode_of_opening (h : c = 0x28 ∨ c = 0x5B) : numCode p c = 0xF := by obtain rfl | rfl := h <;> rfl

theorem numCode_of_closing (h : c = 0x29 ∨ c = 0x5D) : numCode p c = 0x7 := by obtain rfl | rfl := h <;> rfl

/-- A character that is no digit and stands in no other row of R152's table has the code of its last row. -/
theorem numCode_of_unlisted (hdigit : c < 0x30 ∨ 0x39 < c)
    (hlist : c ∉ [0x20#8, 0x75#8, 0x55#8, 0x2D#8, 0x5F#8, 0x28#8, 0x5B#8, 0x29#8, 0x5D#8]) : numCode p c = 0x5 := by
  have hrange : ¬(0x30 ≤ c.toNat ∧ c.toNat ≤ 0x39) := by bv_omega
  simp only [List.mem_cons, List.not_mem_nil, or_false, not_or] at hlist
  simp [numCode, hrange, hlist]

end

/-- NUMD completes with the mirrored code of its character (R154). -/
theorem exec_numd_of_idle {s : State} {c : Byte} {v : Nat} (h : s.ph.idle = true)
    (hv : mirror4 (numCode s.params c) = v) : exec (.numd c) s = .next (afterScalar v s) := by
  rw [← hv, ← rev4_toNat]
  exact scalar_of_idle _ h

/-! ### The number of message codewords (R160) -/

/-- A message has one message codeword per started group of its bits. -/
@[simp] theorem payloadWords_length (p : Config.Params) (mode : Mode) (msg : List Byte) :
    (payloadWords p mode msg).length = groupCount (unitBits mode * msg.length) := by
  simp [payloadWords, groups]

/-- Four bits per character: five characters per group. -/
theorem groupCount_four_mul (n : Nat) : groupCount (4 * n) = (n + 4) / 5 := by
  simp only [groupCount]
  omega

/-! ### The steps of phase PAYLOAD (R157, R158, R181, R211) -/

section
variable {s : State}

/-- In phase PAYLOAD a word is due while a Sync is pending or a full group is accumulated (R211). -/
theorem due_of_payload (hph : s.ph = .payload) :
    due s = if s.work.sp then some .wordSync
      else if s.work.nb = 20#5 then some (.wordMessage s.work.acc) else none := by
  simp only [due, hph]

/-- The lines of phase PAYLOAD that append nothing (R211). -/
theorem silentStep_of_payload (hph : s.ph = .payload) :
    silentStep s = if s.work.ci < s.req.n then shiftStep s
      else if s.work.nb = 0#5 then leaveStep s else fillStep s := by
  simp only [silentStep, hph]

/-- With no Sync pending and no full group the step of phase PAYLOAD is a silent one. -/
theorem step_payload_of_no_word_due (hph : s.ph = .payload) (hport : s.port = none) (hsp : s.work.sp = false)
    (hnb : s.work.nb ≠ 20#5) : step s = .next (silentStep s) := by
  have hrun : s.ph.idle = false := by rw [hph]; rfl
  have hdue : due s = none := by simp [due_of_payload hph, hsp, hnb]
  rw [step_running hrun hport, hdue]

/-- With no Sync pending SP is set exactly when the slot counter wraps (R181). -/
theorem syncAfter_false (wpos : BitVec 4) : syncAfter wpos false = decide (wpos = 15#4) := by
  by_cases h : wpos = 15#4 <;> simp [syncAfter, h]

/-- The whole state after the flush step, with no Sync pending (R157, R181). -/
theorem flushStep_eq (hsp : s.work.sp = false) :
    flushStep s =
      { s with
        out := s.out ++ [messageWord s.work.acc], outp := s.outp + 1,
        work := { s.work with
          acc := 0, nb := 0, wpos := nextSlot s.work.wpos, sp := decide (s.work.wpos = 15#4),
          cnt := if s.req.op = packOp then s.work.cnt else nextCount s.work.cnt } } := by
  rw [← syncAfter_false, ← hsp]
  rfl

/-- A shift to the top is the product with a power of two (R158). -/
theorem shiftLeft_eq_ofNat {w : Nat} (x : BitVec w) (n : Nat) : x <<< n = BitVec.ofNat w (x.toNat * 2 ^ n) := by
  refine BitVec.eq_of_toNat_eq ?_
  rw [BitVec.toNat_shiftLeft, BitVec.toNat_ofNat, Nat.shiftLeft_eq]

@[simp] theorem leaveStep_outp (s : State) : (leaveStep s).outp = s.outp := by
  unfold leaveStep; split <;> simp

/-- The payload phase ends in the terminator, or with the end of PACK (R211). -/
theorem leaveStep_ph (s : State) : (leaveStep s).ph = .term ∨ (leaveStep s).ph = .done := by
  unfold leaveStep; split <;> simp

end

end Sys2Proof.Machine

/-! The theorems that settle the statements stand apart: `Machine` holds operations of the same names. -/
namespace Sys2Proof.PayloadPacker

open Machine

/-- Settles O19 (R152 to R155): RES is the mirror of the character's code, row by row of the table; on the digits 1 to 8
the code computes to the entry of NUM_DIGIT_TABLE. -/
theorem numdResult : Obligations.NumdResult := by
  constructor
  · intro s hidle h1 h2 h3 h4 h5 h6 h7 h8
    exact ⟨exec_numd_of_idle hidle (congrArg mirror4 h1), exec_numd_of_idle hidle (congrArg mirror4 h2),
      exec_numd_of_idle hidle (congrArg mirror4 h3), exec_numd_of_idle hidle (congrArg mirror4 h4),
      exec_numd_of_idle hidle (congrArg mirror4 h5), exec_numd_of_idle hidle (congrArg mirror4 h6),
      exec_numd_of_idle hidle (congrArg mirror4 h7), exec_numd_of_idle hidle (congrArg mirror4 h8)⟩
  · intro s c hidle
    refine ⟨mirror4 (numCode s.params c), exec_numd_of_idle hidle rfl,
      fun h => congrArg mirror4 (numCode_of_zero _ h), ?_, ?_, ?_, ?_, ?_, ?_, ?_, ?_,
      fun h => congrArg mirror4 (numCode_of_nine _ h), fun h => congrArg mirror4 (numCode_of_space _ h),
      fun h => congrArg mirror4 (numCode_of_u _ h), fun h => congrArg mirror4 (numCode_of_dash _ h),
      fun h => congrArg mirror4 (numCode_of_opening _ h), fun h => congrArg mirror4 (numCode_of_closing _ h),
      fun hdigit hlist => congrArg mirror4 (numCode_of_unlisted _ hdigit hlist)⟩
    all_goals
      rintro rfl
      rfl

/-- Settles O24 (R160): one message codeword per started group, at seven and at four bits per character. -/
theorem groupCount : Obligations.GroupCount := fun p msg =>
  ⟨payloadWords_length p .text msg, payloadWords_length p .numeric msg,
    (payloadWords_length p .numeric msg).trans (groupCount_four_mul msg.length)⟩

/-- Settles O33 (R157, R181): the full group's word is due, and its class is run as the flush step. -/
theorem flushStep : Obligations.FlushStep := by
  intro s hph hsp hnb
  have hdue : due s = some (.wordMessage s.work.acc) := by simp [due_of_payload hph, hsp, hnb]
  refine execWordMessage_next.mpr ⟨hdue, ?_⟩
  rw [flushStep_eq hsp, messageWord, messageData_eq_ofNat]
  rfl

/-- Settles O35 (R158): with the message used up the silent step fills a partial group, and leaves the phase where there
is none. -/
theorem padStep : Obligations.PadStep := by
  intro s hph hport hsp hci
  have hused : ¬s.work.ci < s.req.n := hci.not_lt
  constructor
  · intro hpos hlt
    have hfull : s.work.nb ≠ 20#5 := by bv_omega
    have hempty : s.work.nb ≠ 0#5 := by bv_omega
    rw [step_payload_of_no_word_due hph hport hsp hfull, silentStep_of_payload hph, if_neg hused, if_neg hempty,
      fillStep, shiftLeft_eq_ofNat]
  · intro hempty
    have hfull : s.work.nb ≠ 20#5 := by simp [hempty]
    have hstep : step s = .next (leaveStep s) := by
      rw [step_payload_of_no_word_due hph hport hsp hfull, silentStep_of_payload hph, if_neg hused, if_pos hempty]
    exact ⟨leaveStep s, hstep, leaveStep_out s, leaveStep_outp s, leaveStep_ph s⟩

end Sys2Proof.PayloadPacker
end

section
/-! The frame composer's phases before and after the payload (44_frame_composer.md): the preamble, the batch-start Sync,
the leading Idle words, the address and the terminator (rules R207 to R210 and R212). In each of them one word class is
due, and running it is the phase's step. Phases PRE and PREFIX are loops on K: the state after `j` of their words is
written out, and one more step leads from `j` to `j + 1`. -/

namespace Sys2Proof.Machine

/-! ### Runs along a sequence of states -/

/-- A step while a word is due is the meaning of its class (R207 to R213). -/
theorem step_of_due {s : State} {i : Instr} (hrun : s.ph.idle = false) (hport : s.port = none)
    (hdue : due s = some i) : step s = exec i s := by
  rw [step_running hrun hport, hdue]

/-- A first step, and then the others. -/
theorem stepN_succ {s t : State} (k : Nat) (h : step s = .next t) : stepN (k + 1) s = stepN k t := by
  simp only [stepN, h]

/-- A sequence of states in which each step leads to the next one is a run. -/
theorem stepN_of_forall_step {n : Nat} (f : Nat → State) (h : ∀ j < n, step (f j) = .next (f (j + 1))) :
    stepN n (f 0) = .next (f n) := by
  induction n generalizing f with
  | zero => rfl
  | succ n ih =>
    rw [stepN_succ n (h 0 (by omega))]
    exact ih (fun j => f (j + 1)) fun j hj => h (j + 1) (by omega)

/-! ### The due class of each phase, and its meaning -/

section
variable {s : State}

theorem due_of_pre (hph : s.ph = .pre) : due s = some .wordPreamble := by simp only [due, hph]

theorem due_of_sync0 (hph : s.ph = .sync0) : due s = some .wordSync := by simp only [due, hph]

theorem due_of_idlePrefix (hph : s.ph = .idlePrefix) : due s = some .wordIdle := by simp only [due, hph]

theorem due_of_addr (hph : s.ph = .addr) :
    due s = some (.wordAddress (s.req.address.extractLsb' 3 18) s.req.fb) := by simp only [due, hph]

theorem due_of_term (hph : s.ph = .term) : due s = some .wordIdle := by simp only [due, hph]

/-- In phase PRE WORD.PREAMBLE is the step of that phase (R207). -/
theorem exec_wordPreamble_of_pre (hph : s.ph = .pre) : exec .wordPreamble s = .next (preStep s) :=
  execWordPreamble_next.mpr ⟨due_of_pre hph, rfl⟩

/-- In phase SYNC0 WORD.SYNC is the step of that phase (R208). -/
theorem exec_wordSync_of_sync0 (hph : s.ph = .sync0) : exec .wordSync s = .next (sync0Step s) :=
  execWordSync_next.mpr ⟨due_of_sync0 hph, if_pos hph⟩

/-- In phase PREFIX WORD.IDLE is the step of that phase (R209). -/
theorem exec_wordIdle_of_idlePrefix (hph : s.ph = .idlePrefix) : exec .wordIdle s = .next (prefixStep s) :=
  execWordIdle_next.mpr ⟨due_of_idlePrefix hph, if_pos hph⟩

/-- In phase ADDR WORD.ADDRESS of the latched address is the step of that phase (R210). -/
theorem exec_wordAddress_of_addr (hph : s.ph = .addr) :
    exec (.wordAddress (s.req.address.extractLsb' 3 18) s.req.fb) s = .next (addrStep s) :=
  execWordAddress_next.mpr ⟨due_of_addr hph, rfl⟩

/-- In phase TERM WORD.IDLE is the step of that phase (R212). -/
theorem exec_wordIdle_of_term (hph : s.ph = .term) : exec .wordIdle s = .next (termStep s) :=
  execWordIdle_next.mpr ⟨due_of_term hph, by simp [hph]⟩

end

/-! ### The latched address's slot (R195) -/

theorem aoffOf_toNat (s : State) : (aoffOf s).toNat = s.req.address.toNat % 8 * 2 := addressOffset_toNat _

/-- Phase PREFIX is skipped exactly when the slot is 0 (R208). -/
theorem aoffOf_eq_zero_iff (s : State) : aoffOf s = 0#4 ↔ ¬s.req.address.toNat % 8 * 2 > 0 := by
  rw [← aoffOf_toNat]
  bv_omega

/-- A count of K is the slot's when their numbers agree (R209). -/
theorem eq_setWidth_aoffOf_iff (s : State) (k : BitVec 5) :
    k = (aoffOf s).setWidth 5 ↔ k.toNat = s.req.address.toNat % 8 * 2 := by
  rw [← aoffOf_toNat]
  bv_omega

/-- The slot after the address codeword's (R210). -/
theorem aoffOf_add_one (s : State) : aoffOf s + 1 = BitVec.ofNat 4 (s.req.address.toNat % 8 * 2 + 1) := by
  rw [← aoffOf_toNat]
  bv_omega

/-! ### The loop of phase PRE (R207) -/

/-- `s` after `j` words of the preamble. -/
def afterPreamble (s : State) (j : Nat) : State :=
  { s with
    ph := if j = 18 then .sync0 else .pre
    out := s.out ++ List.replicate j preambleWord, outp := s.outp + j
    work := { s.work with k := BitVec.ofNat 5 j } }

theorem afterPreamble_zero {s : State} (hph : s.ph = .pre) (hk : s.work.k = 0#5) : afterPreamble s 0 = s := by
  simp [afterPreamble, ← hph, ← hk]

theorem preStep_afterPreamble (s : State) {j : Nat} (hj : j < 18) :
    preStep (afterPreamble s j) = afterPreamble s (j + 1) := by
  have hk : BitVec.ofNat 5 j + 1 = BitVec.ofNat 5 (j + 1) := (BitVec.ofNat_add j 1).symm
  have hlast : BitVec.ofNat 5 (j + 1) = 18#5 ↔ j + 1 = 18 := by bv_omega
  simp only [preStep, emit, afterPreamble, hk, hlast, if_neg hj.ne, List.replicate_succ', List.append_assoc,
    Nat.add_assoc]

theorem step_afterPreamble {s : State} (hport : s.port = none) {j : Nat} (hj : j < 18) :
    step (afterPreamble s j) = .next (afterPreamble s (j + 1)) := by
  have hph : (afterPreamble s j).ph = .pre := if_neg (by omega)
  have hidle : (afterPreamble s j).ph.idle = false := by rw [hph]; rfl
  rw [step_of_due hidle hport (due_of_pre hph), exec_wordPreamble_of_pre hph, preStep_afterPreamble s hj]

/-! ### The loop of phase PREFIX (R209) -/

/-- `s` after `j` Idle words of phase PREFIX. -/
def afterPrefix (s : State) (j : Nat) : State :=
  { s with
    ph := if j = s.req.address.toNat % 8 * 2 then .addr else .idlePrefix
    out := s.out ++ List.replicate j idleWord, outp := s.outp + j
    work := { s.work with k := BitVec.ofNat 5 j, cnt := nextCount^[j] s.work.cnt } }

theorem afterPrefix_zero {s : State} (hph : s.ph = .idlePrefix) (hk : s.work.k = 0#5)
    (haoff : s.req.address.toNat % 8 * 2 ≠ 0) : afterPrefix s 0 = s := by
  simp [afterPrefix, haoff.symm, ← hph, ← hk]

theorem prefixStep_afterPrefix (s : State) {j : Nat} (hj : j < s.req.address.toNat % 8 * 2) :
    prefixStep (afterPrefix s j) = afterPrefix s (j + 1) := by
  have hk : BitVec.ofNat 5 j + 1 = BitVec.ofNat 5 (j + 1) := (BitVec.ofNat_add j 1).symm
  have hval : (BitVec.ofNat 5 (j + 1)).toNat = j + 1 := by
    rw [BitVec.toNat_ofNat]
    omega
  have hcnt : nextCount (nextCount^[j] s.work.cnt) = nextCount^[j + 1] s.work.cnt :=
    (Function.iterate_succ_apply' ..).symm
  simp only [prefixStep, eq_setWidth_aoffOf_iff, emitC, emit, afterPrefix, hk, hval, hcnt, if_neg hj.ne,
    List.replicate_succ', List.append_assoc, Nat.add_assoc]

theorem step_afterPrefix {s : State} (hport : s.port = none) {j : Nat} (hj : j < s.req.address.toNat % 8 * 2) :
    step (afterPrefix s j) = .next (afterPrefix s (j + 1)) := by
  have hph : (afterPrefix s j).ph = .idlePrefix := if_neg (by omega)
  have hidle : (afterPrefix s j).ph.idle = false := by rw [hph]; rfl
  rw [step_of_due hidle hport (due_of_idlePrefix hph), exec_wordIdle_of_idlePrefix hph,
    prefixStep_afterPrefix s hj]

/-! ### The statements -/

/-- Settles O28 (R207): the class is run as the phase's step, and the loop on K is a run of eighteen of them. -/
theorem preamblePhase : Obligations.PreamblePhase := by
  constructor
  · intro s hph
    rw [exec_wordPreamble_of_pre hph, preStep, hph]
    rfl
  · intro s hph hport hk
    have hrun := stepN_of_forall_step (afterPreamble s) fun _ hj => step_afterPreamble hport hj
    rw [afterPreamble_zero hph hk] at hrun
    exact hrun

/-- Settles O29 (R208): PREFIX follows unless the slot is 0, and then ADDR. -/
theorem batchStartSync : Obligations.BatchStartSync := by
  intro s hph
  rw [exec_wordSync_of_sync0 hph, sync0Step]
  simp only [aoffOf_eq_zero_iff, ite_not]
  rfl

/-- Settles O30 (R209): the class is run as the phase's step, and the loop on K is a run of `aoff` of them. -/
theorem idlePrefixPhase : Obligations.IdlePrefixPhase := by
  constructor
  · intro s hph
    rw [exec_wordIdle_of_idlePrefix hph, prefixStep, hph]
    simp only [eq_setWidth_aoffOf_iff]
    rfl
  · intro s hph hport hk haddr
    have hrun := stepN_of_forall_step (afterPrefix s) fun _ hj => step_afterPrefix hport hj
    rw [afterPrefix_zero hph hk (by omega)] at hrun
    exact ⟨_, hrun, if_pos rfl, rfl⟩

/-- Settles O31 (R210): the latched address's class is run as the phase's step, its data read by value (R90). -/
theorem addressPhase : Obligations.AddressPhase := by
  intro s hph
  rw [exec_wordAddress_of_addr hph, addrStep, aoffOf_add_one, addressWord, addressData_eq_ofNat]
  rfl

/-- Settles O37 (R212): the class is run as the phase's step. -/
theorem terminatorPhase : Obligations.TerminatorPhase := fun _ hph => exec_wordIdle_of_term hph

end Sys2Proof.Machine
end

section
/-! The length estimator (45_length_estimator.md): LEN completes with the estimator's formula or is refused (rules R220
and R222), and the estimator counts the words of TX1 (rule R226). Behind both counts stand the `d` data words before the
terminator: estimator and assembler both come to `17 * (d / 16 + 1)` words, one batch of seventeen per started sixteen. -/

namespace Sys2Proof.Machine

/-! ### A request that reads N, made in READY or DONE (R239, R262) -/

section
variable {n : Nat} {s : State} {k : State → Result}

/-- A message length is within the bound when no `MAX_MSG_LEN` is below it (R239). -/
theorem tooLong_eq_false {p : Config.Params} (h : ∀ m, p.maxMsgLen = some m → n ≤ m) : tooLong p n = false := by
  cases hmax : p.maxMsgLen with
  | none => exact tooLong_none hmax n
  | some m =>
    rw [Bool.eq_false_iff, Ne, tooLong_some hmax]
    exact (h m hmax).not_gt

/-- A request whose message is too long is refused with cause MsgTooLong (R242). -/
theorem withLength_of_tooLong (hidle : s.ph.idle = true) (h : tooLong s.params n = true) :
    withLength n s k = .next (afterRefusal 2 (Config.freeValue s.free 10) s) :=
  withLength_next.mpr ⟨hidle, .inl ⟨h, rfl⟩⟩

end

/-! ### The operation LEN (R220, R222) -/

section
variable {s : State} {repidx n v : Nat} {a : BitVec 21} {mode : Mode}

/-- LEN reads N and is a scalar operation (R220, R239). -/
theorem exec_len : exec (.len repidx a mode n) s =
    withLength n s fun t => .next (scalarDone (lengthOf repidx a n mode) t) := rfl

/-- A message within the bound completes LEN with the estimator's value (R220). -/
theorem exec_len_of_idle (hidle : s.ph.idle = true) (hn : tooLong s.params n = false)
    (hv : lengthOf repidx a n mode = v) : exec (.len repidx a mode n) s = .next (afterScalar v s) := by
  rw [exec_len, hv]
  exact withLength_next.mpr ⟨hidle, .inr ⟨hn, rfl⟩⟩

/-- A message above the bound has LEN refused, with a free value in RES (R239, R242). -/
theorem exec_len_of_tooLong (hidle : s.ph.idle = true) (hn : tooLong s.params n = true) :
    exec (.len repidx a mode n) s = .next (afterRefusal 2 (Config.freeValue s.free 10) s) := by
  rw [exec_len]
  exact withLength_of_tooLong hidle hn

end

theorem unitBits_eq_ite (mode : Mode) : unitBits mode = if mode = .text then 7 else 4 := by cases mode <;> rfl

/-- Settles O20 (R220, R222): LEN reads N, so it completes with the estimator's value or is refused; the value is the
formula with the slot `2 * (a mod 8)` for `aoff` and the mode's bits per character written out. -/
theorem lenResult : Obligations.LenResult := by
  intro s repidx a mode n hidle
  refine ⟨fun hfits => exec_len_of_idle hidle (tooLong_eq_false hfits) ?_, fun ⟨m, hmax, hlt⟩ => ?_⟩
  · rw [lengthOf, dataWords, addressOffset_toNat, unitBits_eq_ite]
    obtain rfl | hlater := eq_or_ne repidx 0
    · rfl
    · rw [if_neg hlater, if_neg hlater]
      rfl
  · exact ⟨_, exec_len_of_tooLong hidle ((tooLong_some hmax n).mpr hlt)⟩

/-! ### The number of words of the estimator and of the assembler (R226) -/

/-- The estimator makes a batch of seventeen words of every started sixteen data words, the terminator with them. -/
theorem withSyncs_padToBatch_succ (d : Nat) : withSyncs (padToBatch (d + 1)) = 17 * (d / 16 + 1) := by
  simp only [withSyncs, padToBatch]
  omega

/-- A Sync follows each word with which the slot counter, started at `wpos`, reaches a multiple of 16 (R181). -/
theorem inject_length (ws : List Word) {wpos : Nat} (hpos : wpos < 16) :
    (inject wpos ws).length = ws.length + (wpos + ws.length) / 16 := by
  induction ws generalizing wpos with
  | nil =>
    simp only [inject, List.length_nil]
    omega
  | cons w ws ih =>
    rw [inject]
    split
    next hwrap =>
      simp only [List.length_cons, ih (show 0 < 16 by decide)]
      omega
    next hwrap =>
      simp only [List.length_cons, ih (show wpos + 1 < 16 by omega)]
      omega

theorem preambleWords_length (repidx : Nat) : (preambleWords repidx).length = if repidx = 0 then 18 else 0 := by
  rw [preambleWords]
  split <;> rfl

/-- The body of a repeat with `d` data words before the terminator: those, their Syncs, the batch-start Sync and the
terminator (R197 to R201). -/
theorem repeatBody_length (p : Config.Params) (a : BitVec 21) (fb : BitVec 2) (mode : Mode) (msg : List Byte) {d : Nat}
    (hd : dataWords a mode msg.length = d + 1) :
    (repeatBody p a fb mode msg).length = d + d / 16 + 2 := by
  have hslot : (addressOffset a).toNat + 1 < 16 := by rw [addressOffset_toNat]; omega
  have hwords : (addressOffset a).toNat + 1 + groupCount (unitBits mode * msg.length) = d := by
    rw [Nat.mul_comm]
    exact Nat.succ.inj hd
  simp only [repeatBody, List.length_append, List.length_cons, List.length_nil, List.length_replicate,
    inject_length _ hslot, payloadWords_length, hwords]
  omega

/-- The assembler fills the body of a repeat up to whole batches of seventeen words (R202). -/
theorem add_paddingWords_length (d : Nat) :
    d + d / 16 + 2 + (paddingWords (d + d / 16 + 2)).length = 17 * (d / 16 + 1) := by
  rw [paddingWords, List.length_replicate]
  omega

/-- Settles O52 (R226): with the same data words before the terminator, estimator and assembler count the same batches
and the same preamble. -/
theorem lenIsTheLengthOfTx1 : Obligations.LenIsTheLengthOfTx1 := by
  intro p repidx a fb mode msg
  obtain ⟨d, hdata⟩ : ∃ d, dataWords a mode msg.length = d + 1 := ⟨_, rfl⟩
  calc lengthOf repidx a msg.length mode
    _ = 17 * (d / 16 + 1) + (preambleWords repidx).length := by
      rw [lengthOf, hdata, withSyncs_padToBatch_succ, preambleWords_length]
    _ = (preambleWords repidx).length + (d + d / 16 + 2 + (paddingWords (d + d / 16 + 2)).length) := by
      rw [add_paddingWords_length, Nat.add_comm]
    _ = (tx1Words p repidx a fb mode msg).length := by
      rw [tx1Words, List.length_append, List.length_append, repeatBody_length p a fb mode msg hdata,
        Nat.add_assoc (preambleWords repidx).length]

end Sys2Proof.Machine
end

section
/-! The selector is examined before the length (60_exceptions.md rule R241). A presented request has one of three
meanings by its selector alone: the refusal of a reserved selector, which reads no operand, a scalar operation, or an
operation that reads `N`. Each has its own causes of ERR. -/

namespace Sys2Proof.Machine

/-- The reserved selectors (R98). -/
def reservedSelector (op : BitVec 4) : Prop := op = 0x0#4 ∨ 0xC#4 ≤ op

/-- The selectors of the operations that read `N` (R239): PACK, TX1, TXR and LEN. -/
def lengthSelector (op : BitVec 4) : Prop := 0x8#4 ≤ op ∧ op ≤ 0xB#4

/-- A step in READY or DONE with a request that fits its ports is the request's meaning, latched (R21, R262). -/
theorem step_of_presented {s : State} {r : Request} (hidle : s.ph.idle = true) (hport : s.port = some r)
    (hfits : r.fits s.params = true) : step s = exec (decodeRequest r) (latch r s) := by
  rw [step_idle hidle, hport]
  exact if_pos hfits

/-! ### The meaning of a request by its selector (R95, R98) -/

section
variable {r : Request} {s : State}

/-- A reserved selector is refused, whatever the operands hold. -/
theorem exec_of_reservedSelector (hop : reservedSelector r.op) : exec (decodeRequest r) s = refuseSelector s := by
  have hcases : r.op = 0x0#4 ∨ r.op = 0xC#4 ∨ r.op = 0xD#4 ∨ r.op = 0xE#4 ∨ r.op = 0xF#4 := by
    unfold reservedSelector at hop
    bv_omega
  obtain h | h | h | h | h := hcases <;> rw [decodeRequest, h] <;> rfl

/-- The other selectors outside the four that read `N` are scalar operations. -/
theorem exec_eq_scalar_of_selector (hres : ¬reservedSelector r.op) (hlen : ¬lengthSelector r.op) :
    ∃ v, exec (decodeRequest r) s = scalar v s := by
  have hcases : r.op = 0x1#4 ∨ r.op = 0x2#4 ∨ r.op = 0x3#4 ∨ r.op = 0x4#4 ∨ r.op = 0x5#4 ∨ r.op = 0x6#4 ∨
      r.op = 0x7#4 := by
    unfold reservedSelector at hres
    unfold lengthSelector at hlen
    bv_omega
  obtain h | h | h | h | h | h | h := hcases <;> rw [decodeRequest, h] <;> exact ⟨_, rfl⟩

@[simp] theorem startRepeats_err (repi rend : Nat) (s : State) : (startRepeats repi rend s).err = s.err := by
  unfold startRepeats
  split_ifs <;> rfl

/-- The four operations that read `N` check it first, and then go on without writing ERR. -/
theorem exec_eq_withLength_of_lengthSelector (hop : lengthSelector r.op) :
    ∃ k, exec (decodeRequest r) s = withLength r.n s k ∧ ∀ u t, k u = .next t → t.err = u.err := by
  have hcases : r.op = 0x8#4 ∨ r.op = 0x9#4 ∨ r.op = 0xA#4 ∨ r.op = 0xB#4 := by
    unfold lengthSelector at hop
    bv_omega
  obtain h | h | h | h := hcases <;> rw [decodeRequest, h]
  · exact ⟨_, (rfl : execPack (modeOfBit r.mode) r.start r.n s = _), by rintro u _ ⟨⟩; rfl⟩
  · exact ⟨_, (rfl : execTx1 r.repidx r.address r.fb (modeOfBit r.mode) r.n s = _), by rintro u _ ⟨⟩; simp⟩
  · exact ⟨_, (rfl : execTxr r.repcnt r.address r.fb (modeOfBit r.mode) r.n s = _), by rintro u _ ⟨⟩; simp⟩
  · exact ⟨_, (rfl : execLen r.repidx r.address (modeOfBit r.mode) r.n s = _), by rintro u _ ⟨⟩; rfl⟩

end

/-! ### The cause in ERR (R239, R240) -/

section
variable {s t : State}

theorem scalar_err {v : Nat} (h : scalar v s = .next t) : t.err = 0 := by
  obtain ⟨-, rfl⟩ := scalar_next.mp h
  rfl

theorem refuseSelector_err (h : refuseSelector s = .next t) : t.err = 1 := by
  obtain ⟨-, rfl⟩ := refuseSelector_next.mp h
  rfl

/-- A request that reads `N` reports MsgTooLong or nothing, when what follows the check writes no ERR. -/
theorem withLength_err {n : Nat} {k : State → Result} (hk : ∀ u t, k u = .next t → t.err = u.err)
    (h : withLength n s k = .next t) : t.err = 0 ∨ t.err = 2 := by
  obtain ⟨-, ⟨-, rfl⟩ | ⟨-, hnext⟩⟩ := withLength_next.mp h
  · exact .inr rfl
  · exact .inl (hk _ _ hnext)

/-- ReservedOp is reported for the reserved selectors only, MsgTooLong for the four that read `N` only. -/
theorem exec_decodeRequest_err {r : Request} (h : exec (decodeRequest r) s = .next t) :
    t.err = 0 ∨ (t.err = 1 ∧ reservedSelector r.op) ∨ (t.err = 2 ∧ lengthSelector r.op) := by
  by_cases hres : reservedSelector r.op
  · rw [exec_of_reservedSelector hres] at h
    exact .inr (.inl ⟨refuseSelector_err h, hres⟩)
  by_cases hlen : lengthSelector r.op
  · obtain ⟨k, hexec, hk⟩ := exec_eq_withLength_of_lengthSelector (s := s) hlen
    exact (withLength_err hk (hexec ▸ h)).imp_right fun herr => .inr ⟨herr, hlen⟩
  · obtain ⟨v, hexec⟩ := exec_eq_scalar_of_selector (s := s) hres hlen
    exact .inl (scalar_err (hexec ▸ h))

end

/-- Settles O43 (R241): a reserved selector is refused before any operand is read, and each cause in ERR belongs to its
own selectors. -/
theorem selectorExaminedFirst : Obligations.SelectorExaminedFirst := by
  intro s r hidle hport hfits
  rw [step_of_presented hidle hport hfits]
  refine ⟨fun hop => ?_, fun t hnext herr => ?_, fun t hnext herr => ?_⟩
  · have hrefused : refuseSelector (latch r s) = .next (takeRefusal .reservedOp (accept (latch r s))) :=
      refuseSelector_next.mpr ⟨hidle, rfl⟩
    exact ⟨_, (exec_of_reservedSelector hop).trans hrefused, rfl, rfl, rfl, rfl, rfl⟩
  · obtain h | ⟨h, -⟩ | ⟨-, hlen⟩ := exec_decodeRequest_err hnext
    · simp [h] at herr
    · simp [h] at herr
    · exact hlen
  · obtain h | ⟨-, hres⟩ | ⟨h, -⟩ := exec_decodeRequest_err hnext
    · simp [h] at herr
    · exact hres
    · simp [h] at herr

end Sys2Proof.Machine
end

section
/-! The code over GF(2). The crc and the codeword encoder are linear (40_crc_parity.md rules R114 and R115,
41_codeword_encoder.md rule R132), so a codeword has the value of a fixed word for one data value only (30_encoding.md rules
R87, R88 and R99). -/

namespace Sys2Proof.Machine

/-! ### Linearity over GF(2) (R114, R115, R132) -/

/-- The division is linear: an iteration takes the generator away from a sum when just one of the two has the top bit. -/
theorem polymodLoop_xor (n : Nat) (a b : BitVec 31) :
    polymodLoop n (a ^^^ b) = polymodLoop n a ^^^ polymodLoop n b := by
  induction n generalizing a b with
  | zero => rfl
  | succ n ih =>
    simp only [polymodLoop, BitVec.getLsbD_xor, ← ih]
    cases a.getLsbD (n + 10) <;> cases b.getLsbD (n + 10)
    · rfl
    · simp [BitVec.xor_assoc]
    · simp [BitVec.xor_assoc, BitVec.xor_comm b]
    · simp [BitVec.xor_assoc, BitVec.xor_comm b]

theorem polymod_xor (a b : BitVec 31) : polymod (a ^^^ b) = polymod a ^^^ polymod b := by
  rw [polymod, polymodLoop_xor, BitVec.setWidth_xor, polymod, polymod]

theorem crc_xor (a b : BitVec 21) : crc (a ^^^ b) = crc a ^^^ crc b := by
  rw [crc, BitVec.setWidth_xor, BitVec.shiftLeft_xor_distrib, polymod_xor, crc, crc]

/-- R115's table holds the crc of each power of two. -/
theorem crc_twoPow : ∀ i < 21, crc (1#21 <<< i) = crcTable.getD i 0 := by decide +kernel

/-- The sum over the bits below `n` sees no other bit. -/
theorem tableSum_congr (table : List (BitVec 10)) {d e : BitVec 21} {n : Nat}
    (h : ∀ i < n, d.getLsbD i = e.getLsbD i) : tableSum table d n = tableSum table e n := by
  induction n with
  | zero => rfl
  | succ n ih => rw [tableSum, tableSum, h n (by omega), ih fun i hi => h i (by omega)]

theorem twoPow_getLsbD {n i : Nat} (hn : n < 21) : (1#21 <<< n).getLsbD i = decide (i = n) := by
  simp only [BitVec.getLsbD_shiftLeft, BitVec.getLsbD_one]
  grind

/-- A value is its bits below `n` plus its bit `n`, where it has none above. -/
theorem crc_eq_tableSum_of_lt {n : Nat} (hn : n ≤ 21) (d : BitVec 21) (hd : ∀ i, n ≤ i → d.getLsbD i = false) :
    crc d = tableSum crcTable d n := by
  induction n generalizing d with
  | zero =>
    have hzero : d = 0 := BitVec.eq_of_getLsbD_eq fun i _ => by simpa using hd i (Nat.zero_le i)
    rw [hzero, crc_zero, tableSum]
  | succ n ih =>
    rw [tableSum]
    cases htop : d.getLsbD n with
    | false =>
      have hlow : ∀ i, n ≤ i → d.getLsbD i = false := fun i hi => by
        obtain rfl | hlt := hi.eq_or_lt
        · exact htop
        · exact hd i hlt
      simpa using ih (by omega) d hlow
    | true =>
      have hbit (i : Nat) : (d ^^^ (1#21 <<< n)).getLsbD i = if i = n then false else d.getLsbD i := by
        rw [BitVec.getLsbD_xor, twoPow_getLsbD (by omega)]
        split
        next h => simp [h, htop]
        next h => simp [h]
      have hlow := ih (by omega) (d ^^^ (1#21 <<< n)) fun i hi => by
        rw [hbit]
        split
        · rfl
        · exact hd i (by omega)
      have hsum : tableSum crcTable (d ^^^ (1#21 <<< n)) n = tableSum crcTable d n :=
        tableSum_congr _ fun i hi => by rw [hbit, if_neg hi.ne]
      rw [if_pos rfl, ← crc_twoPow n (by omega), ← hsum, ← hlow, ← crc_xor, BitVec.xor_comm, BitVec.xor_assoc,
        BitVec.xor_self, BitVec.xor_zero]

/-- Settles O9 (R114, R115): the division is linear, and a value is the sum of its bits. -/
theorem crcIsLinearWithItsTable : Obligations.CrcIsLinearWithItsTable :=
  ⟨polymod_xor, crc_xor, crc_twoPow,
    fun d => crc_eq_tableSum_of_lt le_rfl d fun i hi => BitVec.getLsbD_of_ge d i hi⟩

theorem fullValue_xor (a b : BitVec 21) : fullValue (a ^^^ b) = fullValue a ^^^ fullValue b := by
  simp only [fullValue_eq_xor, crc_xor, BitVec.setWidth_xor, BitVec.shiftLeft_xor_distrib]
  ac_rfl

theorem parityLoop_xor (x y : Word) (n : Nat) : parityLoop (x ^^^ y) n = (parityLoop x n ^^ parityLoop y n) := by
  induction n with
  | zero => rfl
  | succ n ih =>
    simp only [parityLoop, ih, BitVec.getLsbD_xor, Bool.xor_assoc, Bool.xor_left_comm]

/-- The encoder is linear: its value and the parity of it are. -/
theorem encodeCodeword_xor (a b : BitVec 21) :
    encodeCodeword (a ^^^ b) = encodeCodeword a ^^^ encodeCodeword b := by
  refine BitVec.eq_of_getLsbD_eq fun i hi => ?_
  rw [BitVec.getLsbD_xor]
  cases i with
  | zero =>
    rw [encodeCodeword_getLsbD_zero, encodeCodeword_getLsbD_zero, encodeCodeword_getLsbD_zero, fullValue_xor,
      BitVec.setWidth_xor]
    exact parityLoop_xor _ _ 32
  | succ i =>
    have hi' : i < 31 := by omega
    rw [encodeCodeword_getLsbD_succ _ hi', encodeCodeword_getLsbD_succ _ hi', encodeCodeword_getLsbD_succ _ hi',
      fullValue_xor, BitVec.setWidth_xor, BitVec.getLsbD_xor]

/-- The data of a codeword is read back from it (R94). -/
theorem dataOfWord_encodeCodeword (d : BitVec 21) : dataOfWord (encodeCodeword d) = d := (codewordFields d).1

/-- Codewords are equal when their data are (R132). -/
theorem encodeCodeword_inj {a b : BitVec 21} : encodeCodeword a = encodeCodeword b ↔ a = b := by
  constructor
  · intro h
    rw [← dataOfWord_encodeCodeword a, h, dataOfWord_encodeCodeword]
  · exact congrArg encodeCodeword

/-- Settles O12 (R132): the data can be read back, and the encoder is linear bit by bit. -/
theorem encoderInjectiveAndLinear : Obligations.EncoderInjectiveAndLinear :=
  ⟨fun _ _ => encodeCodeword_inj.mp, encodeCodeword_xor⟩

/-! ### The fixed words (R86 to R88, R99) -/

theorem encodeCodeword_syncData : encodeCodeword 0x0F9A42#21 = syncWord := by decide +kernel

theorem encodeCodeword_idleData : encodeCodeword 0x0F5138#21 = idleWord := by decide +kernel

theorem encodeCodeword_eq_syncWord_iff {d : BitVec 21} : encodeCodeword d = syncWord ↔ d = 0x0F9A42#21 := by
  rw [← encodeCodeword_syncData, encodeCodeword_inj]

theorem encodeCodeword_eq_idleWord_iff {d : BitVec 21} : encodeCodeword d = idleWord ↔ d = 0x0F5138#21 := by
  rw [← encodeCodeword_idleData, encodeCodeword_inj]

/-- The codeword with the preamble word's data is another word. -/
theorem encodeCodeword_preambleData : encodeCodeword 0x155555 = 0xAAAAAF1B := by decide +kernel

/-- No codeword is the preamble word: the one with its data is not (R88). -/
theorem encodeCodeword_ne_preambleWord (d : BitVec 21) : encodeCodeword d ≠ preambleWord := by
  intro h
  have hdata : d = 0x155555 := by
    rw [← dataOfWord_encodeCodeword d, h]
    rfl
  rw [hdata, encodeCodeword_preambleData] at h
  exact absurd h (by decide)

/-- Settles O5 (R87, R88): the fixed words are values of the encoder, and the preamble word is none. -/
theorem fixedWordsAndTheCode : Obligations.FixedWordsAndTheCode :=
  ⟨encodeCodeword_syncData, by decide +kernel, encodeCodeword_idleData, by decide +kernel,
    encodeCodeword_preambleData, encodeCodeword_ne_preambleWord, by decide⟩

/-- The address codewords with a given data value: the high bits and FB are its parts (R90). -/
theorem addressData_eq_ofNat_iff {a : BitVec 21} {fb : BitVec 2} {h f : Nat} (hh : h < 2 ^ 18) (hf : f < 4) :
    addressData a fb = BitVec.ofNat 21 (h * 4 + f) ↔ fb.toNat = f ∧ a.toNat / 8 = h := by
  have ha := a.isLt
  have hfb := fb.isLt
  rw [addressData_eq_ofNat, ← BitVec.toNat_inj, BitVec.toNat_ofNat, BitVec.toNat_ofNat]
  omega

/-- A codeword with the role flag set is neither SYNC nor IDLE. -/
theorem messageWord_ne_of_flag (g : BitVec 20) {w : Word} (hw : w.getLsbD 31 = false) : messageWord g ≠ w := by
  rintro rfl
  rw [messageWord_getLsbD_flag] at hw
  cases hw

/-- Settles O6 (R99): the encoder is injective, so an address codeword has the value of SYNC or IDLE when its data is
that word's, and the low three address bits do not matter. -/
theorem sharedWordsAreTheSixteen : Obligations.SharedWordsAreTheSixteen := by
  intro a fb g s hidle
  refine ⟨?_, ?_, exec_addrw_of_idle hidle rfl, messageWord_ne_of_flag g (by decide),
    messageWord_ne_of_flag g (by decide)⟩
  · rw [addressWord, encodeCodeword_eq_syncWord_iff]
    refine (addressData_eq_ofNat_iff (h := 0x3E690) (f := 2) (by decide) (by decide)).trans ?_
    bv_omega
  · rw [addressWord, encodeCodeword_eq_idleWord_iff]
    refine (addressData_eq_ofNat_iff (h := 0x3D44E) (f := 0) (by decide) (by decide)).trans ?_
    bv_omega

end Sys2Proof.Machine
end

section
/-! Decoding (30_encoding.md section 5): what a codeword reads back as by value (rules R81 to R83, R94), and that what is
encoded, an operation or a word, is read back (rules R95 to R98). -/

namespace Sys2Proof.Machine

/-! ### Reading a word by value (R94, R97) -/

theorem flagOfWord_encodeCodeword (d : BitVec 21) : flagOfWord (encodeCodeword d) = d.getLsbD 20 :=
  Laws.flag_encodeCodeword d

/-- A field of a codeword's data stands eleven places up in the codeword (R81). -/
theorem encodeCodeword_extractLsb' (d : BitVec 21) {start len : Nat} (h : start + len ≤ 21) :
    (encodeCodeword d).extractLsb' (11 + start) len = d.extractLsb' start len := by
  refine BitVec.eq_of_getLsbD_eq fun i hi => ?_
  rw [BitVec.getLsbD_extractLsb', BitVec.getLsbD_extractLsb', Nat.add_assoc,
    encodeCodeword_getLsbD_data d (by omega)]

/-- How a codeword reads back: the fixed ones by name, the others by the role flag (R94, R97). -/
theorem decodeWord_encodeCodeword (d : BitVec 21) :
    decodeWord (encodeCodeword d) =
      if d = 0x0F9A42#21 then .wordSync
      else if d = 0x0F5138#21 then .wordIdle
      else if d.getLsbD 20 then .wordMessage (d.extractLsb' 0 20)
      else .wordAddress (d.extractLsb' 2 18) (d.extractLsb' 0 2) := by
  have hgroup : groupOfWord (encodeCodeword d) = d.extractLsb' 0 20 :=
    encodeCodeword_extractLsb' d (start := 0) (by decide)
  have hhigh : addrHiOfWord (encodeCodeword d) = d.extractLsb' 2 18 :=
    encodeCodeword_extractLsb' d (start := 2) (by decide)
  have hfb : fbOfWord (encodeCodeword d) = d.extractLsb' 0 2 :=
    encodeCodeword_extractLsb' d (start := 0) (by decide)
  simp only [decodeWord, encodeCodeword_ne_preambleWord, encodeCodeword_eq_syncWord_iff,
    encodeCodeword_eq_idleWord_iff, flagOfWord_encodeCodeword, hgroup, hhigh, hfb, if_false]

/-- Settles O4 (R81 to R83, R94): the fields of a codeword are those of its data. -/
theorem codewordsReadBackByValue : Obligations.CodewordsReadBackByValue := decodeWord_encodeCodeword

/-! ### What is encoded is read back (R21, R95, R97) -/

/-- The group is read back from a message codeword. -/
theorem decodeWord_messageWord (g : BitVec 20) : decodeWord (messageWord g) = .wordMessage g := by
  have hflag : (messageData g).getLsbD 20 = true := by simp [messageData]
  have hgroup : (messageData g).extractLsb' 0 20 = g := BitVec.eq_of_getLsbD_eq fun i hi => by
    simp [hi, messageData_getLsbD g hi]
  have hsync : messageData g ≠ 0x0F9A42#21 := fun h => by simp [h] at hflag
  have hidle : messageData g ≠ 0x0F5138#21 := fun h => by simp [h] at hflag
  rw [messageWord, decodeWord_encodeCodeword, if_neg hsync, if_neg hidle, if_pos hflag, hgroup]

/-- The data of an address codeword, bit by bit (R82). -/
theorem addressData_getLsbD (a : BitVec 21) (fb : BitVec 2) {i : Nat} (hi : i < 21) :
    (addressData a fb).getLsbD i = if i < 2 then fb.getLsbD i else a.getLsbD (3 + (i - 2)) := by
  rw [addressData, BitVec.getLsbD_or, BitVec.getLsbD_shiftLeft, BitVec.getLsbD_ushiftRight, BitVec.getLsbD_setWidth]
  by_cases hlow : i < 2
  · simp [hlow, hi]
  · simp [hlow, hi, BitVec.getLsbD_of_ge fb i (by omega)]

/-- High bits and FB are read back from an address codeword that has no fixed word's value (R97, R99). -/
theorem decodeWord_addressWord {hi : BitVec 18} {fb : BitVec 2}
    (hsync : addressWord (addressOfHi hi) fb ≠ syncWord) (hidle : addressWord (addressOfHi hi) fb ≠ idleWord) :
    decodeWord (addressWord (addressOfHi hi) fb) = .wordAddress hi fb := by
  rw [addressWord, Ne, encodeCodeword_eq_syncWord_iff] at hsync
  rw [addressWord, Ne, encodeCodeword_eq_idleWord_iff] at hidle
  have hflag : ¬(addressData (addressOfHi hi) fb).getLsbD 20 = true := by simp [addressData]
  have hhigh : (addressData (addressOfHi hi) fb).extractLsb' 2 18 = hi := BitVec.eq_of_getLsbD_eq fun i hlt => by
    rw [BitVec.getLsbD_extractLsb', addressData_getLsbD _ _ (by omega), if_neg (by omega), Nat.add_sub_cancel_left,
      addressOfHi_getLsbD_add_three, decide_eq_true hlt, Bool.true_and]
  have hfb : (addressData (addressOfHi hi) fb).extractLsb' 0 2 = fb := BitVec.eq_of_getLsbD_eq fun i hlt => by
    rw [BitVec.getLsbD_extractLsb', addressData_getLsbD _ _ (by omega), if_pos (by omega), Nat.zero_add,
      decide_eq_true hlt, Bool.true_and]
  rw [addressWord, decodeWord_encodeCodeword, if_neg hsync, if_neg hidle, if_neg hflag, hhigh, hfb]

@[simp] theorem modeOfBit_modeBit (mode : Mode) : modeOfBit (modeBit mode) = mode := by cases mode <;> rfl

/-- Settles O1 (R21, R95, R97): a request's selector and operands are read back from its record, a word class's fields
from its word. -/
theorem decodeOfEncodeIsTheInstruction : Obligations.DecodeOfEncodeIsTheInstruction := by
  intro p i hwf
  cases i with
  | crc10 | par32 | encw | aoff | addrw | msgw | numd => rfl
  | reserved0 | reservedC | reservedD | reservedE | reservedF => rfl
  | pack mode | tx1 _ _ _ mode | txr _ _ _ mode | len _ _ mode => cases mode <;> rfl
  | wordPreamble | wordSync | wordIdle => decide
  | wordAddress hi fb =>
    simp only [Instr.wellFormed, Bool.and_eq_true, bne_iff_ne] at hwf
    exact decodeWord_addressWord hwf.1 hwf.2
  | wordMessage g => exact decodeWord_messageWord g
  | wordCodeword => cases hwf

/-- Settles O3 (R95, R98): the sixteen selectors, one by one. -/
theorem selectorNamesOperation : Obligations.SelectorNamesOperation := by
  intro r
  refine ⟨?_, ?_, ?_, ?_, ?_, ?_, ?_, ?_, ?_, ?_, ?_, ?_, ?_, ?_, ?_, ?_⟩
  all_goals
    intro hop
    rw [decodeRequest, hop]
    rfl

/-- Settles O2: the rows of the table, read one by one. -/
theorem tableRowsDecode : Obligations.TableRowsDecode := by
  unfold Obligations.TableRowsDecode
  decide

end Sys2Proof.Machine
end

section
/-! Requests as they are accepted and refused (44_frame_composer.md rule R206, 60_exceptions.md rules R239 to R242,
70_reset_and_hazards.md rules R260 and R262): what a request's meaning is in READY and DONE, and that it has none while
an operation runs. -/

namespace Sys2Proof.Machine

/-! ### The start of the stream operations (R183, R206) -/

theorem modeBit_eq_ite (mode : Mode) : modeBit mode = if mode = .text then 0 else 1 := by cases mode <;> rfl

/-- The operands that PACK latches, the others as in `r` (R21). -/
def packRecord (r : Request) (mode : Mode) (start : BitVec 4) (n : Nat) : Request :=
  { r with op := packOp, mode := modeBit mode, start := start, n := n }

/-- The operands that TX1 latches, the others as in `r` (R21). -/
def tx1Record (r : Request) (rep : Nat) (a : BitVec 21) (fb : BitVec 2) (mode : Mode) (n : Nat) : Request :=
  { r with op := 0x9, repidx := rep, address := a, fb := fb, mode := modeBit mode, n := n }

/-- The operands that TXR latches, the others as in `r` (R21). -/
def txrRecord (r : Request) (rep : Nat) (a : BitVec 21) (fb : BitVec 2) (mode : Mode) (n : Nat) : Request :=
  { r with op := 0xA, repcnt := rep, address := a, fb := fb, mode := modeBit mode, n := n }

section
variable {s : State} {mode : Mode} {start : BitVec 4} {n rep : Nat} {a : BitVec 21} {fb : BitVec 2}

/-- PACK reads N and opens a stream (R183). -/
theorem exec_pack : exec (.pack mode start n) s = withLength n s fun t =>
    .next (startPack start (openStream (packRecord t.req mode start n) t)) := rfl

/-- TX1 reads N and opens a stream (R203). -/
theorem exec_tx1 : exec (.tx1 rep a fb mode n) s = withLength n s fun t =>
    .next (startRepeats rep (rep + 1) (openStream (tx1Record t.req rep a fb mode n) t)) := rfl

/-- TXR reads N and opens a stream (R204). -/
theorem exec_txr : exec (.txr rep a fb mode n) s = withLength n s fun t =>
    .next (startRepeats 0 rep (openStream (txrRecord t.req rep a fb mode n) t)) := rfl

/-- PACK, accepted (R183). -/
theorem exec_pack_of_idle (hidle : s.ph.idle = true) (hn : tooLong s.params n = false) :
    exec (.pack mode start n) s = .next (startPack start (openStream (packRecord s.req mode start n) (accept s))) :=
  exec_pack.trans (withLength_next.mpr ⟨hidle, .inr ⟨hn, rfl⟩⟩)

/-- TX1, accepted (R203, R206). -/
theorem exec_tx1_of_idle (hidle : s.ph.idle = true) (hn : tooLong s.params n = false) :
    exec (.tx1 rep a fb mode n) s =
      .next (startRepeats rep (rep + 1) (openStream (tx1Record s.req rep a fb mode n) (accept s))) :=
  exec_tx1.trans (withLength_next.mpr ⟨hidle, .inr ⟨hn, rfl⟩⟩)

/-- TXR, accepted (R204, R206). -/
theorem exec_txr_of_idle (hidle : s.ph.idle = true) (hn : tooLong s.params n = false) :
    exec (.txr rep a fb mode n) s =
      .next (startRepeats 0 rep (openStream (txrRecord s.req rep a fb mode n) (accept s))) :=
  exec_txr.trans (withLength_next.mpr ⟨hidle, .inr ⟨hn, rfl⟩⟩)

/-- No repeats: the operation is over at once. -/
theorem startRepeats_self (rep : Nat) (s : State) :
    startRepeats rep rep s = finish { s with work := { s.work with repi := rep, rend := rep } } := if_pos rfl

/-- From repeat 0 the sequencer starts with the preamble. -/
theorem startRepeats_zero (hrep : 0 < rep) (s : State) :
    startRepeats 0 rep s = { s with work := { s.work with repi := 0, rend := rep, k := 0 }, ph := .pre } := by
  rw [startRepeats, if_neg hrep.ne, if_pos rfl]

/-- From a later repeat the sequencer starts with the batch-start Sync. -/
theorem startRepeats_succ {rend : Nat} (hrep : 0 < rep) (hlt : rep < rend) (s : State) :
    startRepeats rep rend s = { s with work := { s.work with repi := rep, rend := rend }, ph := .sync0 } := by
  rw [startRepeats, if_neg hlt.ne, if_neg hrep.ne']

@[simp] theorem startRepeats_port (repi rend : Nat) (s : State) : (startRepeats repi rend s).port = s.port := by
  unfold startRepeats
  split_ifs <;> rfl

end

/-- Settles O26 (R183, R262): the accepted request opens the stream and initialises the packer. -/
theorem packStarts : Obligations.PackStarts := by
  intro s mode start n hidle hn
  rw [exec_pack_of_idle hidle hn, packRecord, modeBit_eq_ite]
  rfl

/-- Settles O27 (R206): the sequencer starts by the repeat index, and is over at once with no repeats. -/
theorem composerStarts : Obligations.ComposerStarts := by
  intro s rep a fb mode n hidle hn
  simp only [exec_tx1_of_idle hidle hn, exec_txr_of_idle hidle hn, tx1Record, txrRecord, modeBit_eq_ite]
  refine ⟨?_, fun hrep => ?_, fun hrep => ?_, ?_⟩
  · rintro rfl
    rw [startRepeats_zero (by decide)]
    rfl
  · rw [startRepeats_succ hrep (by omega)]
    rfl
  · rw [startRepeats_zero hrep]
    rfl
  · rintro rfl
    rw [startRepeats_self]
    exact ⟨_, _, rfl⟩

/-! ### Requests and the port (R214, R262) -/

/-- The meaning of a request is a scalar operation, the refusal of a reserved selector, LEN, or one of the stream
operations, which alone read the message (R95, R98). -/
theorem exec_request_cases {i : Instr} (hi : isRequest i = true) :
    (messageRead i = none ∧ ∃ v : Config.Params → Nat, ∀ s, exec i s = scalar (v s.params) s) ∨
      (∀ s, exec i s = refuseSelector s) ∨
      (messageRead i = none ∧ ∃ n v, ∀ s, exec i s = withLength n s fun t => .next (scalarDone v t)) ∨
      ∃ n k, messageRead i = some n ∧ (∀ s, exec i s = withLength n s k) ∧ ∀ u t, k u = .next t → t.port = u.port := by
  cases i
  case wordPreamble | wordSync | wordIdle | wordAddress | wordMessage | wordCodeword => cases hi
  case crc10 | par32 | encw | aoff | addrw | msgw => exact .inl ⟨rfl, fun _ => _, fun _ => rfl⟩
  case numd ch => exact .inl ⟨rfl, fun p => (rev4 (numCode p ch)).toNat, fun _ => rfl⟩
  case reserved0 | reservedC | reservedD | reservedE | reservedF => exact .inr (.inl fun _ => rfl)
  case len => exact .inr (.inr (.inl ⟨rfl, _, _, fun _ => exec_len⟩))
  case pack => exact .inr (.inr (.inr ⟨_, _, rfl, fun _ => exec_pack, by rintro u _ ⟨⟩; rfl⟩))
  case tx1 => exact .inr (.inr (.inr ⟨_, _, rfl, fun _ => exec_tx1, by rintro u _ ⟨⟩; simp⟩))
  case txr => exact .inr (.inr (.inr ⟨_, _, rfl, fun _ => exec_txr, by rintro u _ ⟨⟩; simp⟩))

/-- The meaning of a request leaves the port alone. -/
theorem exec_request_port {i : Instr} {s t : State} (hi : isRequest i = true) (h : exec i s = .next t) :
    t.port = s.port := by
  obtain ⟨-, v, hexec⟩ | hexec | ⟨-, n, v, hexec⟩ | ⟨n, k, -, hexec, hk⟩ := exec_request_cases hi
  all_goals rw [hexec] at h
  · obtain ⟨-, rfl⟩ := scalar_next.mp h
    rfl
  · obtain ⟨-, rfl⟩ := refuseSelector_next.mp h
    rfl
  · obtain ⟨-, ⟨-, rfl⟩ | ⟨-, hnext⟩⟩ := withLength_next.mp h
    · rfl
    · cases hnext
      rfl
  · obtain ⟨-, ⟨-, rfl⟩ | ⟨-, hnext⟩⟩ := withLength_next.mp h
    · rfl
    · exact hk (accept s) t hnext

/-- Settles O44 (R262, U3): the meaning of every request checks the phase, and the fetch looks at the port. -/
theorem noRequestWhileRunning : Obligations.NoRequestWhileRunning := by
  constructor
  · intro s i hrun hi
    obtain ⟨-, v, h⟩ | h | ⟨-, n, v, h⟩ | ⟨n, k, -, h, -⟩ := exec_request_cases hi
    all_goals
      rw [h]
      exact whenIdle_running hrun
  · intro s r hrun hport
    simp [step, fetch, hrun, hport]

/-- Settles O45 (R214): the fetch finds no request. -/
theorem noStepWithoutRequest : Obligations.NoStepWithoutRequest := by
  intro s hidle hport
  rw [step_idle hidle, hport]

/-- Settles O46 (R21, R262, R207 to R213): the two ways in which the fetch gives an instruction to run. -/
theorem stepRunsTheDecodedInstruction : Obligations.StepRunsTheDecodedInstruction :=
  ⟨fun _ _ hidle hport hfits => step_of_presented hidle hport hfits,
    fun _ _ hrun hport hdue => step_of_due hrun hport hdue⟩

/-- Settles O47 (R37, R260): the fields of the two reset states. -/
theorem resetValues : Obligations.ResetValues :=
  ⟨⟨rfl, rfl, rfl, rfl, rfl⟩, fun _ => ⟨rfl, rfl, rfl, rfl, rfl, rfl, rfl⟩⟩

/-! ### Refusals (R239 to R242) -/

/-- A reserved selector in READY or DONE is refused with cause ReservedOp (R242). -/
theorem refuseSelector_of_idle {s : State} (hidle : s.ph.idle = true) :
    refuseSelector s = .next (afterRefusal 1 (Config.freeValue s.free 10) s) :=
  refuseSelector_next.mpr ⟨hidle, rfl⟩

/-- Settles O41 (R239, R240, R242): the five selectors have one meaning. -/
theorem reservedSelectorRefused : Obligations.ReservedSelectorRefused := by
  intro s i hi hidle
  simp only [List.mem_cons, List.not_mem_nil, or_false] at hi
  obtain rfl | rfl | rfl | rfl | rfl := hi <;> exact ⟨_, refuseSelector_of_idle hidle⟩

/-- Settles O42 (R239, R242): the four operations that read N check it first. -/
theorem longMessageRefused : Obligations.LongMessageRefused := by
  intro s m n repidx a fb mode start i hi hidle hmax hlt
  have hlong : tooLong s.params n = true := (tooLong_some hmax n).mpr hlt
  simp only [List.mem_cons, List.not_mem_nil, or_false] at hi
  obtain rfl | rfl | rfl | rfl := hi
  · exact ⟨_, exec_pack.trans (withLength_of_tooLong hidle hlong)⟩
  · exact ⟨_, exec_tx1.trans (withLength_of_tooLong hidle hlong)⟩
  · exact ⟨_, exec_txr.trans (withLength_of_tooLong hidle hlong)⟩
  · exact ⟨_, exec_len_of_tooLong hidle hlong⟩

end Sys2Proof.Machine
end

section
/-! The steps of the sequencer, all together (44_frame_composer.md rules R207 to R214): which one a running phase takes,
that a due word class is run as that step (rules R81, R181), and what no step changes (20_memory.md rules R52 and R67). -/

namespace Sys2Proof.Machine

/-! ### The due class in phases PAYLOAD and PAD, and its meaning (R181, R211, R213) -/

section
variable {s : State}

/-- While a Sync is pending WORD.SYNC is due. -/
theorem due_of_pending (hph : s.ph = .payload) (hsp : s.work.sp = true) : due s = some .wordSync := by
  simp [due_of_payload hph, hsp]

/-- While a Sync is pending WORD.SYNC is the step that appends it. -/
theorem exec_wordSync_of_pending (hph : s.ph = .payload) (hsp : s.work.sp = true) :
    exec .wordSync s = .next (pendingSyncStep s) :=
  execWordSync_next.mpr ⟨due_of_pending hph hsp, by simp [hph]⟩

/-- With a full group and no Sync pending the class of its word is due. -/
theorem due_of_full (hph : s.ph = .payload) (hsp : s.work.sp = false) (hnb : s.work.nb = 20#5) :
    due s = some (.wordMessage s.work.acc) := by
  simp [due_of_payload hph, hsp, hnb]

/-- The class of a full group's word is the flush step. -/
theorem exec_wordMessage_of_full (hph : s.ph = .payload) (hsp : s.work.sp = false) (hnb : s.work.nb = 20#5) :
    exec (.wordMessage s.work.acc) s = .next (flushStep s) :=
  execWordMessage_next.mpr ⟨due_of_full hph hsp hnb, rfl⟩

theorem due_of_pad (hph : s.ph = .pad) : due s = if s.work.cnt = 0#5 then none else some .wordIdle := by
  simp only [due, hph]

/-- In phase PAD WORD.IDLE is due while CNT is not 0. -/
theorem due_of_padding (hph : s.ph = .pad) (hcnt : s.work.cnt ≠ 0#5) : due s = some .wordIdle := by
  simp [due_of_pad hph, hcnt]

/-- In phase PAD WORD.IDLE pads while CNT is not 0. -/
theorem exec_wordIdle_of_pad (hph : s.ph = .pad) (hcnt : s.work.cnt ≠ 0#5) :
    exec .wordIdle s = .next (padStep s) :=
  execWordIdle_next.mpr ⟨due_of_padding hph hcnt, by simp [hph]⟩

/-- A step of a running phase with no word due is a silent one. -/
theorem step_of_no_word_due (hrun : s.ph.idle = false) (hport : s.port = none) (hdue : due s = none) :
    step s = .next (silentStep s) := by
  rw [step_running hrun hport, hdue]

theorem silentStep_of_pad (hph : s.ph = .pad) : silentStep s = nextRepeatStep s := by simp only [silentStep, hph]

end

/-! ### The phase and the working registers after each step -/

section
variable (s : State)

@[simp] theorem preStep_ph : (preStep s).ph = if s.work.k + 1 = 18#5 then .sync0 else s.ph := rfl
@[simp] theorem preStep_work : (preStep s).work = { s.work with k := s.work.k + 1 } := rfl
@[simp] theorem sync0Step_ph : (sync0Step s).ph = if aoffOf s = 0#4 then .addr else .idlePrefix := rfl
@[simp] theorem sync0Step_work : (sync0Step s).work = { s.work with cnt := 1, k := 0 } := rfl
@[simp] theorem prefixStep_ph :
    (prefixStep s).ph = if s.work.k + 1 = (aoffOf s).setWidth 5 then .addr else s.ph := rfl
@[simp] theorem prefixStep_work :
    (prefixStep s).work = { s.work with cnt := nextCount s.work.cnt, k := s.work.k + 1 } := rfl
@[simp] theorem addrStep_ph : (addrStep s).ph = .payload := rfl
@[simp] theorem addrStep_work :
    (addrStep s).work = { s.work with
        cnt := nextCount s.work.cnt, wpos := aoffOf s + 1, acc := 0, nb := 0, sp := false, ci := 0, bi := 0 } := rfl
@[simp] theorem pendingSyncStep_ph : (pendingSyncStep s).ph = s.ph := rfl
@[simp] theorem pendingSyncStep_work :
    (pendingSyncStep s).work = { s.work with
        cnt := if s.req.op = packOp then s.work.cnt else nextCount s.work.cnt, sp := false } := rfl
@[simp] theorem flushStep_ph : (flushStep s).ph = s.ph := rfl
@[simp] theorem flushStep_work :
    (flushStep s).work = { s.work with
        cnt := if s.req.op = packOp then s.work.cnt else nextCount s.work.cnt
        wpos := nextSlot s.work.wpos, sp := syncAfter s.work.wpos s.work.sp, acc := 0, nb := 0 } := rfl
@[simp] theorem shiftStep_ph : (shiftStep s).ph = s.ph := rfl
@[simp] theorem fillStep_ph : (fillStep s).ph = s.ph := rfl
@[simp] theorem fillStep_work :
    (fillStep s).work = { s.work with acc := s.work.acc <<< (20 - s.work.nb.toNat), nb := 20 } := rfl
@[simp] theorem termStep_ph : (termStep s).ph = .pad := rfl
@[simp] theorem termStep_work : (termStep s).work = { s.work with cnt := nextCount s.work.cnt } := rfl
@[simp] theorem padStep_ph : (padStep s).ph = s.ph := rfl
@[simp] theorem padStep_work : (padStep s).work = { s.work with cnt := nextCount s.work.cnt } := rfl

end

/-- The payload phase of PACK is the whole operation. -/
theorem leaveStep_of_pack {s : State} (hop : s.req.op = packOp) : leaveStep s = finish s := if_pos hop

/-- The payload phase of TX1 and TXR ends in the terminator. -/
theorem leaveStep_of_ne_pack {s : State} (hop : s.req.op ≠ packOp) : leaveStep s = { s with ph := .term } :=
  if_neg hop

/-- After the last repeat the operation is over (R213). -/
theorem nextRepeatStep_of_last {s : State} (h : s.work.repi + 1 = s.work.rend) :
    nextRepeatStep s = finish { s with work := { s.work with repi := s.work.repi + 1 } } := if_pos h

/-- After another repeat the next one starts (R213). -/
theorem nextRepeatStep_of_more {s : State} (h : s.work.repi + 1 ≠ s.work.rend) :
    nextRepeatStep s = { s with work := { s.work with repi := s.work.repi + 1 }, ph := .sync0 } := if_neg h

@[simp] theorem ready_idle : Phase.ready.idle = true := rfl
@[simp] theorem done_idle : Phase.done.idle = true := rfl
@[simp] theorem pre_running : Phase.pre.idle = false := rfl
@[simp] theorem sync0_running : Phase.sync0.idle = false := rfl
@[simp] theorem idlePrefix_running : Phase.idlePrefix.idle = false := rfl
@[simp] theorem addr_running : Phase.addr.idle = false := rfl
@[simp] theorem payload_running : Phase.payload.idle = false := rfl
@[simp] theorem term_running : Phase.term.idle = false := rfl
@[simp] theorem pad_running : Phase.pad.idle = false := rfl

/-! ### The step of each phase -/

/-- The steps of the sequencer, with the conditions under which each is the next one (R207 to R213). -/
inductive SeqStep (s : State) : State → Prop
  | preamble (hph : s.ph = .pre) : SeqStep s (preStep s)
  | sync0 (hph : s.ph = .sync0) : SeqStep s (sync0Step s)
  | idlePrefix (hph : s.ph = .idlePrefix) : SeqStep s (prefixStep s)
  | addr (hph : s.ph = .addr) : SeqStep s (addrStep s)
  | pendingSync (hph : s.ph = .payload) (hsp : s.work.sp = true) : SeqStep s (pendingSyncStep s)
  | flush (hph : s.ph = .payload) (hsp : s.work.sp = false) (hnb : s.work.nb = 20#5) : SeqStep s (flushStep s)
  | shift (hph : s.ph = .payload) (hsp : s.work.sp = false) (hnb : s.work.nb ≠ 20#5) (hci : s.work.ci < s.req.n) :
    SeqStep s (shiftStep s)
  | fill (hph : s.ph = .payload) (hsp : s.work.sp = false) (hnb : s.work.nb ≠ 20#5) (hci : s.req.n ≤ s.work.ci)
    (hpart : s.work.nb ≠ 0#5) : SeqStep s (fillStep s)
  | leave (hph : s.ph = .payload) (hsp : s.work.sp = false) (hci : s.req.n ≤ s.work.ci) (hnb : s.work.nb = 0#5) :
    SeqStep s (leaveStep s)
  | term (hph : s.ph = .term) : SeqStep s (termStep s)
  | pad (hph : s.ph = .pad) (hcnt : s.work.cnt ≠ 0#5) : SeqStep s (padStep s)
  | nextRepeat (hph : s.ph = .pad) (hcnt : s.work.cnt = 0#5) : SeqStep s (nextRepeatStep s)

section
variable {s t : State}

/-- Only a running phase has a step of the sequencer. -/
theorem SeqStep.running (h : SeqStep s t) : s.ph.idle = false := by
  cases h <;> simp [*]

/-- Every running phase has a step of the sequencer. -/
theorem exists_seqStep (hrun : s.ph.idle = false) : ∃ t, SeqStep s t := by
  cases hph : s.ph with
  | ready | done => simp [hph] at hrun
  | pre => exact ⟨_, .preamble hph⟩
  | sync0 => exact ⟨_, .sync0 hph⟩
  | idlePrefix => exact ⟨_, .idlePrefix hph⟩
  | addr => exact ⟨_, .addr hph⟩
  | term => exact ⟨_, .term hph⟩
  | payload =>
    cases hsp : s.work.sp with
    | true => exact ⟨_, .pendingSync hph hsp⟩
    | false =>
      by_cases hnb : s.work.nb = 20#5
      · exact ⟨_, .flush hph hsp hnb⟩
      obtain hci | hci := lt_or_ge s.work.ci s.req.n
      · exact ⟨_, .shift hph hsp hnb hci⟩
      by_cases hpart : s.work.nb = 0#5
      · exact ⟨_, .leave hph hsp hci hpart⟩
      · exact ⟨_, .fill hph hsp hnb hci hpart⟩
  | pad =>
    by_cases hcnt : s.work.cnt = 0#5
    · exact ⟨_, .nextRepeat hph hcnt⟩
    · exact ⟨_, .pad hph hcnt⟩

/-- A step that appends nothing is the silent one, a step that appends a word is the meaning of the due class. -/
theorem SeqStep.due_cases (h : SeqStep s t) :
    (due s = none ∧ silentStep s = t) ∨ ∃ i, due s = some i ∧ exec i s = .next t := by
  cases h with
  | preamble hph => exact .inr ⟨_, due_of_pre hph, exec_wordPreamble_of_pre hph⟩
  | sync0 hph => exact .inr ⟨_, due_of_sync0 hph, exec_wordSync_of_sync0 hph⟩
  | idlePrefix hph => exact .inr ⟨_, due_of_idlePrefix hph, exec_wordIdle_of_idlePrefix hph⟩
  | addr hph => exact .inr ⟨_, due_of_addr hph, exec_wordAddress_of_addr hph⟩
  | term hph => exact .inr ⟨_, due_of_term hph, exec_wordIdle_of_term hph⟩
  | pad hph hcnt => exact .inr ⟨_, due_of_padding hph hcnt, exec_wordIdle_of_pad hph hcnt⟩
  | pendingSync hph hsp => exact .inr ⟨_, due_of_pending hph hsp, exec_wordSync_of_pending hph hsp⟩
  | flush hph hsp hnb => exact .inr ⟨_, due_of_full hph hsp hnb, exec_wordMessage_of_full hph hsp hnb⟩
  | shift hph hsp hnb hci =>
    exact .inl ⟨by simp [due_of_payload hph, hsp, hnb], by simp [silentStep_of_payload hph, hci]⟩
  | fill hph hsp hnb hci hpart =>
    exact .inl ⟨by simp [due_of_payload hph, hsp, hnb], by simp [silentStep_of_payload hph, hci.not_gt, hpart]⟩
  | leave hph hsp hci hnb =>
    exact .inl ⟨by simp [due_of_payload hph, hsp, hnb], by simp [silentStep_of_payload hph, hci.not_gt, hnb]⟩
  | nextRepeat hph hcnt => exact .inl ⟨by simp [due_of_pad hph, hcnt], silentStep_of_pad hph⟩

/-- The sequencer's step is the step of the block while the host presents no request. -/
theorem SeqStep.step_eq (h : SeqStep s t) (hport : s.port = none) : step s = .next t := by
  obtain ⟨hdue, rfl⟩ | ⟨i, hdue, hexec⟩ := h.due_cases
  · exact step_of_no_word_due h.running hport hdue
  · exact (step_of_due h.running hport hdue).trans hexec

/-- A running phase takes its step of the sequencer, or bars the host. -/
theorem step_eq_next_iff (hrun : s.ph.idle = false) : step s = .next t ↔ s.port = none ∧ SeqStep s t := by
  constructor
  · intro h
    have hport : s.port = none := by
      cases hp : s.port with
      | none => rfl
      | some r => simp [noRequestWhileRunning.2 s r hrun hp] at h
    obtain ⟨u, hu⟩ := exists_seqStep hrun
    obtain rfl : u = t := by simpa [hu.step_eq hport] using h
    exact ⟨hport, hu⟩
  · rintro ⟨hport, h⟩
    exact h.step_eq hport

/-! ### What a step keeps, and what it appends (R52, R67) -/

/-- What no step of a running operation changes. -/
structure SameInputs (s t : State) : Prop where
  msg : t.msg = s.msg
  req : t.req = s.req
  err : t.err = s.err
  port : t.port = s.port
  params : t.params = s.params

theorem SeqStep.sameInputs (h : SeqStep s t) : SameInputs s t := by
  cases h with
  | leave =>
    unfold leaveStep
    split <;> exact ⟨rfl, rfl, rfl, rfl, rfl⟩
  | nextRepeat =>
    unfold nextRepeatStep
    split <;> exact ⟨rfl, rfl, rfl, rfl, rfl⟩
  | _ => exact ⟨rfl, rfl, rfl, rfl, rfl⟩

/-- Until the operation ends, its steps leave RES, DONE and the count of the draws alone. -/
theorem SeqStep.result_of_not_done (h : SeqStep s t) (ht : t.ph ≠ .done) :
    t.res = s.res ∧ t.done = s.done ∧ t.free = s.free := by
  cases h with
  | leave =>
    by_cases hop : s.req.op = packOp
    · simp [leaveStep_of_pack hop] at ht
    · simp [leaveStep_of_ne_pack hop]
  | nextRepeat =>
    by_cases hlast : s.work.repi + 1 = s.work.rend
    · simp [nextRepeatStep_of_last hlast] at ht
    · simp [nextRepeatStep_of_more hlast]
  | _ => exact ⟨rfl, rfl, rfl⟩

/-- OUTP counts the words that a step appends. -/
theorem SeqStep.outp_add (h : SeqStep s t) : t.outp + s.out.length = s.outp + t.out.length := by
  cases h with
  | shift | fill => rfl
  | leave => rw [leaveStep_outp, leaveStep_out]
  | nextRepeat =>
    rw [nextRepeatStep_out]
    unfold nextRepeatStep
    split <;> rfl
  | _ =>
    simp [preStep, sync0Step, prefixStep, addrStep, pendingSyncStep, flushStep, termStep, padStep]
    omega

/-- A step leaves OUT as it is, or appends the word of the due class. -/
theorem SeqStep.out_cases (h : SeqStep s t) :
    (due s = none ∧ t.out = s.out ∧ t.outp = s.outp) ∨
      ∃ i w, due s = some i ∧ exec i s = .next t ∧ encode i = .word w ∧ t.out = s.out ++ [w] ∧ t.outp = s.outp + 1 := by
  have hcount := h.outp_add
  obtain ⟨hdue, rfl⟩ | ⟨i, hdue, hexec⟩ := h.due_cases
  · rw [silentStep_out] at hcount
    exact .inl ⟨hdue, silentStep_out s, by omega⟩
  · obtain ⟨w, henc, hout⟩ := exec_due_emits hdue hexec
    rw [hout, List.length_append, List.length_singleton] at hcount
    exact .inr ⟨i, w, hdue, hexec, henc, hout, by omega⟩

/-- Settles O55 (R52, R67, R273): a running phase has a step of the sequencer, and none changes anything else. -/
theorem runningStepFrame : Obligations.RunningStepFrame := by
  intro s hrun hport
  obtain ⟨t, h⟩ := exists_seqStep hrun
  obtain ⟨hmsg, hreq, herr, hp, hparams⟩ := h.sameInputs
  refine ⟨t, h.step_eq hport, ?_, hmsg, hreq, herr, hp, hparams, h.result_of_not_done⟩
  obtain ⟨-, hout⟩ | ⟨i, w, -, -, -, hout⟩ := h.out_cases
  · exact .inl hout
  · exact .inr ⟨w, hout⟩

/-! ### Word classes that are due, and the generic one (R81, log 1) -/

/-- In READY and DONE no word is due. -/
theorem due_of_idle (hidle : s.ph.idle = true) : due s = none ∧ dueCodeword s = none := by
  obtain hph | hph := idle_iff.mp hidle <;> simp [due, dueCodeword, hph]

theorem running_of_due {i : Instr} (hdue : due s = some i) : s.ph.idle = false :=
  Bool.eq_false_iff.mpr fun hidle => by simp [(due_of_idle hidle).1] at hdue

theorem running_of_dueCodeword {w : Word} (hdue : dueCodeword s = some w) : s.ph.idle = false :=
  Bool.eq_false_iff.mpr fun hidle => by simp [(due_of_idle hidle).2] at hdue

/-- A due word class answers a next state, the sequencer's, with its word appended. -/
theorem exec_of_due {i : Instr} (hdue : due s = some i) :
    ∃ t w, SeqStep s t ∧ exec i s = .next t ∧ encode i = .word w ∧ t.out = s.out ++ [w] ∧ t.outp = s.outp + 1 := by
  obtain ⟨t, h⟩ := exists_seqStep (running_of_due hdue)
  obtain ⟨hnone, -⟩ | ⟨j, w, hj, hrest⟩ := h.out_cases
  · simp [hnone] at hdue
  · obtain rfl : j = i := by simpa [hj] using hdue
    exact ⟨t, w, h, hrest⟩

/-- The word of the latched address's class (R134). -/
theorem encode_wordAddress_of_extract (a : BitVec 21) (fb : BitVec 2) :
    encode (.wordAddress (a.extractLsb' 3 18) fb) = .word (addressWord a fb) :=
  congrArg Code.word (addressWord_addressOfHi a fb)

/-- Outside phase PRE the due word is a codeword (R88). -/
theorem dueCodeword_of_due {i : Instr} {w : Word} (hdue : due s = some i) (hpre : s.ph ≠ .pre)
    (henc : encode i = .word w) : dueCodeword s = some w := by
  cases hph : s.ph <;> simp only [due, dueCodeword, hph] at hdue ⊢
  case ready | done => cases hdue
  case pre => exact absurd hph hpre
  case sync0 | idlePrefix | term => cases hdue; cases henc; rfl
  case addr =>
    cases hdue
    cases (encode_wordAddress_of_extract _ _).symm.trans henc
    rfl
  case payload =>
    split_ifs at hdue ⊢
    all_goals
      cases hdue
      cases henc
      rfl
  case pad =>
    split_ifs at hdue ⊢
    cases hdue
    cases henc
    rfl

/-- The due codeword is the word of the due class, and appending it is the sequencer's step. -/
theorem SeqStep.codewordStep_eq {w : Word} (h : SeqStep s t) (hdue : dueCodeword s = some w) :
    codewordStep s = t ∧ ∃ i, due s = some i := by
  cases h with
  | preamble hph => simp [dueCodeword, hph] at hdue
  | sync0 hph | idlePrefix hph | addr hph | term hph => simp [codewordStep, due, hph]
  | pendingSync hph hsp => simp [codewordStep, due, hph, hsp]
  | flush hph hsp hnb => simp [codewordStep, due, hph, hsp, hnb]
  | shift hph hsp hnb | fill hph hsp hnb => simp [dueCodeword, hph, hsp, hnb] at hdue
  | leave hph hsp _ hnb => simp [dueCodeword, hph, hsp, hnb] at hdue
  | pad hph hcnt => simp [codewordStep, due, hph, hcnt]
  | nextRepeat hph hcnt => simp [dueCodeword, hph, hcnt] at hdue

/-- The generic class with the due codeword's data is the meaning of the due class. -/
theorem exec_wordCodeword_of_due {i : Instr} {d : BitVec 21} {w : Word} (hdue : due s = some i) (hpre : s.ph ≠ .pre)
    (henc : encode i = .word w) (hd : encodeCodeword d = w) :
    exec (.wordCodeword d) s = exec i s ∧ ∃ t, exec (.wordCodeword d) s = .next t ∧
      t.out = s.out ++ [w] ∧ t.msg = s.msg ∧ t.req = s.req := by
  subst hd
  obtain ⟨t, w, h, hexec, hw, hout, -⟩ := exec_of_due hdue
  obtain rfl : encodeCodeword d = w := by simpa [henc] using hw
  have hcw := dueCodeword_of_due hdue hpre henc
  have hgen : exec (.wordCodeword d) s = .next t := execWordCodeword_next.mpr ⟨hcw, (h.codewordStep_eq hcw).1⟩
  exact ⟨hgen.trans hexec.symm, t, hgen, hout, h.sameInputs.msg, h.sameInputs.req⟩

/-- Settles O39 (R81, log 1): in every phase where a codeword is due, the generic class with its data is run as the
class that is due. -/
theorem genericCodewordIsTheDueOne : Obligations.GenericCodewordIsTheDueOne := by
  intro s
  refine ⟨?_, ?_, fun hph => ?_, fun hph hsp hnb => ?_⟩
  · rintro (hph | ⟨hph, hsp⟩)
    · exact exec_wordCodeword_of_due (due_of_sync0 hph) (by simp [hph]) rfl encodeCodeword_syncData
    · exact exec_wordCodeword_of_due (due_of_pending hph hsp) (by simp [hph]) rfl encodeCodeword_syncData
  · rintro (hph | hph | ⟨hph, hcnt⟩)
    · exact exec_wordCodeword_of_due (due_of_idlePrefix hph) (by simp [hph]) rfl encodeCodeword_idleData
    · exact exec_wordCodeword_of_due (due_of_term hph) (by simp [hph]) rfl encodeCodeword_idleData
    · exact exec_wordCodeword_of_due (due_of_padding hph hcnt) (by simp [hph]) rfl encodeCodeword_idleData
  · exact exec_wordCodeword_of_due (due_of_addr hph) (by simp [hph]) (encode_wordAddress_of_extract _ _) rfl
  · exact exec_wordCodeword_of_due (due_of_full hph hsp hnb) (by simp [hph]) rfl rfl

/-- A word class that is not due stops by name. -/
theorem exec_of_not_due {i : Instr} (hi : isRequest i = false) (hdue : due s ≠ some i)
    (hgen : ∀ d, i = .wordCodeword d → dueCodeword s ≠ some (encodeCodeword d)) : exec i s = .fault .wordNotDue := by
  cases i
  case wordPreamble | wordSync | wordIdle | wordAddress | wordMessage => exact if_neg hdue
  case wordCodeword d => exact if_neg (hgen d rfl)
  all_goals cases hi

/-- Settles O40 (R81, log 1): a due class, by its name or as the generic one, is run as the sequencer's step, which
appends its word and no other. -/
theorem wordClassAppendsItsWord : Obligations.WordClassAppendsItsWord := by
  refine ⟨fun i s hi => ⟨?_, exec_of_not_due hi⟩, fun s t w hrun hstep hout => ?_⟩
  · rintro (hdue | ⟨d, rfl, hcw⟩)
    · obtain ⟨t, w, -, hrest⟩ := exec_of_due hdue
      exact ⟨t, w, hrest⟩
    · obtain ⟨t, h⟩ := exists_seqStep (running_of_dueCodeword hcw)
      obtain ⟨hgen, j, hj⟩ := h.codewordStep_eq hcw
      obtain ⟨hnone, -⟩ | ⟨i, w, hi, -, henc, hout⟩ := h.out_cases
      · simp [hnone] at hj
      · have hpre : s.ph ≠ .pre := fun hph => by simp [dueCodeword, hph] at hcw
        obtain rfl : w = encodeCodeword d := by simpa [hcw] using (dueCodeword_of_due hi hpre henc).symm
        exact ⟨t, _, execWordCodeword_next.mpr ⟨hcw, hgen⟩, rfl, hout⟩
  · obtain hsame | ⟨i, v, hdue, henc, hv⟩ := running_step_out hrun hstep
    · simp [hout] at hsame
    · obtain rfl : v = w := by simpa [hv] using hout
      exact ⟨i, hdue, henc⟩

end

/-! ### The steps of phases PAYLOAD and PAD (R156, R181, R211, R213) -/

/-- Settles O32 (R181, R211): the pending Sync's class is due, and is run as the step that appends it. -/
theorem pendingSyncFirst : Obligations.PendingSyncFirst := fun _ hph hsp => exec_wordSync_of_pending hph hsp

/-- Settles O36 (R211): the last line of phase PAYLOAD is a silent step. -/
theorem payloadEnds : Obligations.PayloadEnds := by
  intro s hph hport hsp hnb hci
  have hstep : step s = .next (leaveStep s) := (SeqStep.leave hph hsp hci hnb).step_eq hport
  rw [hstep]
  refine ⟨fun hop => ?_, fun hop => ?_⟩
  · rw [leaveStep_of_ne_pack hop]
  · rw [leaveStep_of_pack hop]
    exact ⟨_, _, rfl⟩

/-- Settles O38 (R213): WORD.IDLE is run as the padding step, and with CNT at 0 the step is a silent one. -/
theorem paddingPhase : Obligations.PaddingPhase := by
  refine ⟨fun s hph hcnt => exec_wordIdle_of_pad hph hcnt, fun s hph hport hcnt hmore => ?_,
    fun s hph hport hcnt hlast => ?_⟩
  · rw [(SeqStep.nextRepeat hph hcnt).step_eq hport, nextRepeatStep, if_neg hmore]
  · rw [(SeqStep.nextRepeat hph hcnt).step_eq hport, nextRepeatStep, if_pos hlast]
    exact ⟨_, _, rfl⟩

/-- A bit of a character by the latched mode (R151, R154). -/
theorem charBit_modeOf (s : State) (c : Byte) (i : Nat) :
    charBit s.params (modeOf s) c i =
      if s.req.mode = 0#1 then c.getLsbD (6 - i) else (rev4 (numCode s.params c)).getLsbD (3 - i) := by
  rw [modeOf, modeOfBit]
  split
  · simp [charBit, charValue, unitBits, show 6 - i < 7 by omega]
  · simp [charBit, charValue, unitBits, show 3 - i < 7 by omega]

/-- The last bit of a character by the latched mode (R150). -/
theorem unitBits_modeOf (s : State) : unitBits (modeOf s) - 1 = if s.req.mode = 0#1 then 6 else 3 := by
  rw [modeOf, modeOfBit]
  split <;> rfl

end Sys2Proof.Machine

/-! The theorem that settles the statement stands apart: `Machine` holds the operation of the same name. -/
namespace Sys2Proof.PayloadPacker

open Machine

/-- Settles O34 (R156): the silent step of phase PAYLOAD while characters are left, its bit read by the latched mode. -/
theorem shiftStep : Obligations.ShiftStep := by
  intro s hph hport hsp hnb hci
  rw [(SeqStep.shift hph hsp hnb hci).step_eq hport, Machine.shiftStep]
  simp only [charBit_modeOf, unitBits_modeOf]
  congr 5
  split <;> split <;> simp [*]

end Sys2Proof.PayloadPacker
end

section
/-! The invariant of the block (10_state.md sections 3, 5 and 7). In READY and DONE it speaks of MSG and the status only;
in a running phase each of its parts is kept by every step of the sequencer, and the start of a stream operation
establishes it. -/

namespace Sys2Proof.Machine

/-! ### The invariant in READY and DONE -/

/-- Outside an operation the invariant speaks of MSG and of the status alone. -/
theorem blockInv_of_idle {s : State} (hidle : s.ph.idle = true) (hmsg : s.msg.wf = true) (hstatus : statusGood s) :
    BlockInv s := by
  have hrun : s.ph.idle ≠ false := by simp [hidle]
  refine ⟨hmsg, hstatus, fun h => absurd h hrun, fun h => absurd h hrun, fun h => ?_, fun _ => ?_⟩
  · simp [h, Phase.idle] at hidle
  · refine ⟨?_, ?_, ?_, ?_, ?_, ?_⟩ <;> intro h <;> simp [h, Phase.idle] at hidle

/-- Settles O58 (R37): READY, DONE clear, no refusal, and nothing in MSG. -/
theorem resetMeetsTheInvariant : Obligations.ResetMeetsTheInvariant :=
  blockInv_of_idle rfl reset_msg_wf ⟨by decide, by decide, fun _ => rfl, fun _ => rfl⟩

/-- The invariant does not read the operands' port, and of MSG it asks the canonical form only. -/
theorem BlockInv.of_host_move {s : State} {m : Memory} {p : Option Request} (h : BlockInv s) (hm : m.wf = true) :
    BlockInv { s with msg := m, port := p } := ⟨hm, h.2⟩

/-- A state right after the acceptance of a request that is over at once, in DONE, has a good status. -/
theorem statusGood_of_done {s : State} (hph : s.ph = .done) (hdone : s.done = true) (herr : s.err ≠ 3#2)
    (houtp : s.err ≠ 0#2 → s.outp = 0) : statusGood s :=
  ⟨by simp [hph, hdone], herr, fun h => by simp [hph, Phase.idle] at h, houtp⟩

/-! ### What the steps of the sequencer do to the phase and to the repeats -/

section
variable {s t : State}

/-- A step stays in a running phase, or ends the operation. -/
theorem SeqStep.running_or_done (h : SeqStep s t) : t.ph.idle = false ∨ (t.ph = .done ∧ t.done = true) := by
  cases h with
  | leave =>
    by_cases hop : s.req.op = packOp
    · exact .inr (by simp [leaveStep_of_pack hop])
    · exact .inl (by simp [leaveStep_of_ne_pack hop])
  | nextRepeat =>
    by_cases hlast : s.work.repi + 1 = s.work.rend
    · exact .inr (by simp [nextRepeatStep_of_last hlast])
    · exact .inl (by simp [nextRepeatStep_of_more hlast])
  | preamble hph | sync0 hph | idlePrefix hph => exact .inl (by simp [hph, apply_ite Phase.idle])
  | addr hph | pendingSync hph | flush hph | shift hph | fill hph | term hph | pad hph => exact .inl (by simp [hph])

/-- While an operation runs its status says so. -/
theorem statusGood_running_iff (hrun : s.ph.idle = false) : statusGood s ↔ s.done = false ∧ s.err = 0#2 := by
  have hph : s.ph ≠ .done := fun h => by simp [h, Phase.idle] at hrun
  simp only [statusGood, hph, hrun, iff_false, Bool.not_eq_true]
  constructor
  · rintro ⟨hdone, -, herr, -⟩
    exact ⟨hdone, herr trivial⟩
  · rintro ⟨hdone, herr⟩
    exact ⟨hdone, by simp [herr], fun _ => herr, fun h => absurd herr h⟩

theorem SeqStep.keeps_statusGood (h : SeqStep s t) (hs : statusGood s) : statusGood t := by
  obtain ⟨hdone, herr⟩ := (statusGood_running_iff h.running).mp hs
  have herr' : t.err = 0#2 := h.sameInputs.err.trans herr
  obtain hrun | ⟨hph, hd⟩ := h.running_or_done
  · have hnd : t.ph ≠ .done := fun hph => by simp [hph, Phase.idle] at hrun
    exact (statusGood_running_iff hrun).mpr ⟨(h.result_of_not_done hnd).2.1.trans hdone, herr'⟩
  · exact statusGood_of_done hph hd (by simp [herr']) fun hne => absurd herr' hne

/-- The steps of phase PAYLOAD stay in it, but for the last one. -/
theorem SeqStep.ph_of_payload (h : SeqStep s t) (hph : s.ph = .payload) (hop : s.req.op = packOp)
    (hrun : t.ph.idle = false) : t.ph = .payload := by
  cases h with
  | leave => simp [leaveStep_of_pack hop, Phase.idle] at hrun
  | pendingSync | flush | shift | fill => exact hph
  | preamble h | sync0 h | idlePrefix h | addr h | term h | pad h | nextRepeat h => simp [h] at hph

theorem SeqStep.keeps_streamGood (h : SeqStep s t) (hs : streamGood s) : streamGood t := by
  intro hrun
  obtain ⟨hop, hlen, hout, hpack⟩ := hs h.running
  have hcount := h.outp_add
  rw [h.sameInputs.req, h.sameInputs.params]
  exact ⟨hop, hlen, by omega, fun h8 => h.ph_of_payload (hpack h8) h8 hrun⟩

/-- The repeats' registers change at the start of the next repeat only (R213). -/
theorem SeqStep.repeats (h : SeqStep s t) (hrun : t.ph.idle = false) :
    (t.work.repi = s.work.repi ∧ t.work.rend = s.work.rend ∧ (t.ph = .pre → s.ph = .pre)) ∨
      (s.work.repi + 1 ≠ s.work.rend ∧ t.work.repi = s.work.repi + 1 ∧ t.work.rend = s.work.rend ∧ t.ph = .sync0) := by
  cases h with
  | leave =>
    by_cases hop : s.req.op = packOp
    · simp [leaveStep_of_pack hop] at hrun
    · exact .inl (by simp [leaveStep_of_ne_pack hop])
  | nextRepeat =>
    by_cases hlast : s.work.repi + 1 = s.work.rend
    · simp [nextRepeatStep_of_last hlast] at hrun
    · exact .inr (by simp [nextRepeatStep_of_more hlast, hlast])
  | sync0 => exact .inl ⟨rfl, rfl, fun h => by rw [sync0Step_ph] at h; split at h <;> simp at h⟩
  | idlePrefix hph => exact .inl ⟨rfl, rfl, fun h => by rw [prefixStep_ph, hph] at h; split at h <;> simp at h⟩
  | preamble hph => exact .inl ⟨rfl, rfl, fun _ => hph⟩
  | addr | term => exact .inl ⟨rfl, rfl, fun h => by simp at h⟩
  | pendingSync | flush | shift | fill | pad => exact .inl ⟨rfl, rfl, id⟩

theorem SeqStep.keeps_repeatGood (h : SeqStep s t) (hs : repeatGood s) : repeatGood t := by
  intro hrun hop
  rw [h.sameInputs.req] at hop ⊢
  obtain ⟨hlt, hpre, htx1, htxr⟩ := hs h.running hop
  obtain ⟨hrepi, hrend, hph⟩ | ⟨hmore, hrepi, hrend, hph⟩ := h.repeats hrun
  · rw [hrepi, hrend]
    exact ⟨hlt, fun h' => hpre (hph h'), htx1, htxr⟩
  · rw [hrepi, hrend, hph]
    refine ⟨by omega, fun h' => by simp at h', fun h9 => ?_, htxr⟩
    obtain ⟨h1, h2⟩ := htx1 h9
    omega

/-! ### The packer's registers (R22, R23, R28, R156 to R158) -/

theorem unitBits_pos (mode : Mode) : 0 < unitBits mode := by cases mode <;> decide

theorem unitBits_le (mode : Mode) : unitBits mode ≤ 7 := by cases mode <;> decide

/-- A bit shifted in makes a value one bit longer. -/
theorem shiftIn_lt {acc : BitVec 20} {n : Nat} (h : acc.toNat < 2 ^ n) (b : Bool) :
    ((acc <<< 1) ||| (BitVec.ofBool b).setWidth 20).toNat < 2 ^ (n + 1) := by
  rw [BitVec.toNat_or]
  refine Nat.or_lt_two_pow ?_ ?_
  · rw [BitVec.toNat_shiftLeft, Nat.shiftLeft_eq, Nat.pow_succ]
    exact lt_of_le_of_lt (Nat.mod_le _ _) (Nat.mul_lt_mul_of_pos_right h (by decide))
  · have hb : b.toNat < 2 := Bool.toNat_lt b
    have hn : 2 ≤ 2 ^ (n + 1) := by rw [Nat.pow_succ]; exact Nat.le_mul_of_pos_left 2 (Nat.two_pow_pos n)
    rw [BitVec.toNat_setWidth_of_le (by decide), BitVec.toNat_ofBool]
    omega

/-- Taking a bit of a character counts BI up, or goes on to the next character (R156). -/
theorem shiftStep_work (hbi : s.work.bi.toNat < unitBits (modeOf s)) :
    (s.work.bi.toNat + 1 < unitBits (modeOf s) ∧ (shiftStep s).work.ci = s.work.ci ∧
        (shiftStep s).work.bi.toNat = s.work.bi.toNat + 1) ∨
      (s.work.bi.toNat + 1 = unitBits (modeOf s) ∧ (shiftStep s).work.ci = s.work.ci + 1 ∧
        (shiftStep s).work.bi = 0#3) := by
  have hunit := unitBits_le (modeOf s)
  by_cases hlast : s.work.bi.toNat = unitBits (modeOf s) - 1
  · exact .inr ⟨by omega, by simp [shiftStep, hlast], by simp [shiftStep, hlast]⟩
  · have hbi' : (s.work.bi + 1).toNat = s.work.bi.toNat + 1 := by bv_omega
    exact .inl ⟨by omega, by simp [shiftStep, hlast], by simpa [shiftStep, hlast] using hbi'⟩

theorem SeqStep.keeps_packerGood (h : SeqStep s t) (hs : packerGood s) : packerGood t := by
  intro ht
  cases h with
  | preamble hph | idlePrefix hph =>
    simp only [preStep_ph, prefixStep_ph, hph] at ht
    split at ht <;> cases ht
  | sync0 =>
    rw [sync0Step_ph] at ht
    split at ht <;> cases ht
  | term => cases ht
  | pad hph => simp [hph] at ht
  | leave => unfold leaveStep at ht; split at ht <;> cases ht
  | nextRepeat => unfold nextRepeatStep at ht; split at ht <;> cases ht
  | addr => exact ⟨by simp, by simp, Nat.zero_le _, unitBits_pos _, fun _ => rfl, fun h => by cases h⟩
  | pendingSync hph =>
    obtain ⟨hnb, hacc, hci, hbi, hend, -⟩ := hs hph
    exact ⟨hnb, hacc, hci, hbi, hend, fun h => by cases h⟩
  | flush hph hsp =>
    obtain ⟨-, -, hci, hbi, hend, -⟩ := hs hph
    rw [flushStep_eq hsp]
    exact ⟨by simp, by simp, hci, hbi, hend, fun h => by simp [nextSlot, of_decide_eq_true h]⟩
  | fill hph =>
    obtain ⟨-, -, hci, hbi, hend, hsync⟩ := hs hph
    exact ⟨by simp, BitVec.isLt _, hci, hbi, hend, hsync⟩
  | shift hph hsp hfull hlt =>
    obtain ⟨hnb, hacc, -, hbi, -, hsync⟩ := hs hph
    have hnb' : (shiftStep s).work.nb.toNat = s.work.nb.toNat + 1 := by
      show (s.work.nb + 1).toNat = _
      bv_omega
    have hacc' : (shiftStep s).work.acc.toNat < 2 ^ (shiftStep s).work.nb.toNat := by
      rw [hnb']
      exact shiftIn_lt hacc _
    have hle : (shiftStep s).work.nb.toNat ≤ 20 := by bv_omega
    obtain ⟨hmore, hci, hbi'⟩ | ⟨-, hci, hbi'⟩ := shiftStep_work hbi
    · have hne : (shiftStep s).work.ci ≠ s.req.n := hci ▸ hlt.ne
      exact ⟨hle, hacc', hci ▸ hlt.le, hbi' ▸ hmore, fun hend => absurd hend hne, hsync⟩
    · exact ⟨hle, hacc', hci ▸ hlt, hbi' ▸ unitBits_pos _, fun _ => hbi', hsync⟩

/-! ### The counters of TX1 and TXR (R26, R27, R36, R205) -/

/-- What the counters hold in a phase. -/
def countersAt (s : State) : Phase → Prop
  | .pre => s.work.k.toNat < 18
  | .idlePrefix => s.work.k.toNat < (aoffOf s).toNat ∧ s.work.cnt.toNat = s.work.k.toNat + 1
  | .addr => s.work.cnt.toNat = (aoffOf s).toNat + 1
  | .payload =>
    (s.work.sp = true → s.work.cnt = 0#5) ∧ (s.work.sp = false → s.work.cnt.toNat = (s.work.wpos.toNat + 1) % 17)
  | .term => s.work.cnt.toNat = s.work.wpos.toNat + 1
  | .pad => s.work.cnt.toNat ≤ 16 ∧ s.work.cnt ≠ 1#5
  | .ready | .sync0 | .done => True

theorem counterGood_iff : counterGood s ↔ (s.req.op ≠ packOp → countersAt s s.ph) := by
  have hop : (s.req.op ≠ 0x8#4) = (s.req.op ≠ packOp) := rfl
  cases hph : s.ph <;> simp [counterGood, countersAt, hph, hop]

theorem nextCount_toNat (c : BitVec 5) : (nextCount c).toNat = (c.toNat + 1) % 17 := by
  rw [nextCount, BitVec.toNat_ofNat]
  omega

theorem SeqStep.keeps_counterGood (h : SeqStep s t) (hpacker : packerGood s) (hs : counterGood s) : counterGood t := by
  rw [counterGood_iff, h.sameInputs.req] at *
  intro hop
  have hc := hs hop
  have haoff : aoffOf t = aoffOf s := by rw [aoffOf, h.sameInputs.req, aoffOf]
  have hslot : (aoffOf s).toNat ≤ 14 := by rw [aoffOf_toNat]; omega
  cases h with
  | preamble hph =>
    simp only [hph, countersAt] at hc
    by_cases hlast : s.work.k + 1 = 18#5
    · simp only [preStep_ph, if_pos hlast, countersAt]
    · simp only [preStep_ph, if_neg hlast, hph, countersAt, preStep_work]
      bv_omega
  | sync0 hph =>
    by_cases hzero : aoffOf s = 0#4
    · simp [hzero, countersAt, haoff]
    · simp only [sync0Step_ph, if_neg hzero, countersAt, haoff, sync0Step_work]
      refine ⟨?_, rfl⟩
      bv_omega
  | idlePrefix hph =>
    simp only [hph, countersAt] at hc
    by_cases hlast : s.work.k + 1 = (aoffOf s).setWidth 5
    · simp only [prefixStep_ph, if_pos hlast, countersAt, haoff, prefixStep_work, nextCount_toNat]
      bv_omega
    · simp only [prefixStep_ph, if_neg hlast, hph, countersAt, haoff, prefixStep_work, nextCount_toNat]
      bv_omega
  | addr hph =>
    simp only [hph, countersAt] at hc
    simp only [addrStep_ph, countersAt, addrStep_work, nextCount_toNat]
    refine ⟨nofun, fun _ => ?_⟩
    bv_omega
  | pendingSync hph hsp =>
    simp only [hph, countersAt] at hc
    obtain ⟨-, -, -, -, -, hsync⟩ := hpacker hph
    simp [hph, countersAt, hop, nextCount_toNat, hc.1 hsp, hsync hsp]
  | flush hph hsp =>
    simp only [hph, countersAt] at hc
    have hcnt := hc.2 hsp
    simp only [flushStep_ph, hph, countersAt, flushStep_work, if_neg hop, hsp, syncAfter_false, nextSlot]
    by_cases hwrap : s.work.wpos = 15#4
    · refine ⟨fun _ => ?_, fun h => by simp [hwrap] at h⟩
      rw [hwrap] at hcnt
      rw [← BitVec.toNat_inj, nextCount_toNat, hcnt]
      rfl
    · refine ⟨fun h => absurd (of_decide_eq_true h) hwrap, fun _ => ?_⟩
      rw [nextCount_toNat, hcnt, if_neg hwrap]
      bv_omega
  | shift hph | fill hph =>
    rw [hph] at hc
    simp only [shiftStep_ph, fillStep_ph, hph]
    exact hc
  | leave hph hsp =>
    simp only [hph, countersAt] at hc
    simp only [leaveStep_of_ne_pack hop, countersAt, hc.2 hsp]
    bv_omega
  | term hph =>
    simp only [hph, countersAt] at hc
    simp only [termStep_ph, countersAt, termStep_work, nextCount_toNat, ← BitVec.toNat_inj, Ne]
    bv_omega
  | pad hph hcnt =>
    simp only [hph, countersAt] at hc
    simp only [padStep_ph, hph, countersAt, padStep_work, nextCount_toNat, ← BitVec.toNat_inj, Ne]
    bv_omega
  | nextRepeat hph =>
    by_cases hlast : s.work.repi + 1 = s.work.rend
    · simp [nextRepeatStep_of_last hlast, countersAt]
    · simp [nextRepeatStep_of_more hlast, countersAt]

/-- Every step of the sequencer keeps the invariant. -/
theorem SeqStep.keeps_blockInv (h : SeqStep s t) (hs : BlockInv s) : BlockInv t := by
  obtain ⟨hmsg, hstatus, hstream, hrepeat, hpacker, hcounter⟩ := hs
  exact ⟨h.sameInputs.msg ▸ hmsg, h.keeps_statusGood hstatus, h.keeps_streamGood hstream, h.keeps_repeatGood hrepeat,
    h.keeps_packerGood hpacker, h.keeps_counterGood hpacker hcounter⟩

/-! ### Requests establish the invariant (R183, R206, R242, R262) -/

theorem blockInv_of_scalar {v : Nat} (hmsg : s.msg.wf = true) (h : scalar v s = .next t) : BlockInv t := by
  obtain ⟨-, rfl⟩ := scalar_next.mp h
  exact blockInv_of_idle rfl hmsg (statusGood_of_done rfl rfl (by simp) fun _ => rfl)

theorem blockInv_takeRefusal (c : Cause) (hmsg : s.msg.wf = true) : BlockInv (takeRefusal c s) :=
  blockInv_of_idle rfl hmsg (statusGood_of_done rfl rfl (by cases c <;> simp [causeCode]) fun _ => rfl)

/-- A request that reads N is refused, or what it does in the accepting step keeps the invariant. -/
theorem blockInv_of_withLength {n : Nat} {k : State → Result} (hmsg : s.msg.wf = true) (h : withLength n s k = .next t)
    (hk : s.ph.idle = true → tooLong s.params n = false → k (accept s) = .next t → BlockInv t) : BlockInv t := by
  obtain ⟨hidle, ⟨-, rfl⟩ | ⟨hn, hnext⟩⟩ := withLength_next.mp h
  · exact blockInv_takeRefusal _ hmsg
  · exact hk hidle hn hnext

/-- PACK starts with its registers in their ranges. -/
theorem blockInv_startPack (start : BitVec 4) (hmsg : s.msg.wf = true) (hop : s.req.op = packOp)
    (hn : tooLong s.params s.req.n = false) (hout : s.out.length = s.outp) (hdone : s.done = false) (herr : s.err = 0#2) :
    BlockInv (startPack start s) :=
  ⟨hmsg, (statusGood_running_iff rfl).mpr ⟨hdone, herr⟩, fun _ => ⟨.inl hop, hn, hout, fun _ => rfl⟩,
    fun _ hne => absurd hop hne, fun _ => ⟨by simp [startPack], by simp [startPack], Nat.zero_le _, unitBits_pos _,
      fun _ => rfl, nofun⟩, fun hne => absurd hop hne⟩

/-- The first state of TX1 and TXR, in phase PRE or SYNC0, meets the invariant. -/
theorem blockInv_of_first_phase (hph : s.ph = .pre ∧ s.work.k = 0 ∧ s.work.repi = 0 ∨ s.ph = .sync0)
    (hmsg : s.msg.wf = true) (hstatus : s.done = false ∧ s.err = 0#2)
    (hstream : (s.req.op = 0x9#4 ∨ s.req.op = 0xA#4) ∧ tooLong s.params s.req.n = false ∧ s.out.length = s.outp)
    (hlt : s.work.repi < s.work.rend)
    (htx1 : s.req.op = 0x9#4 → s.work.repi = s.req.repidx ∧ s.work.rend = s.req.repidx + 1)
    (htxr : s.req.op = 0xA#4 → s.work.rend = s.req.repcnt) : BlockInv s := by
  obtain ⟨hop, hn, hout⟩ := hstream
  have hne : s.req.op ≠ 0x8#4 := by obtain h | h := hop <;> simp [h]
  have hrun : s.ph.idle = false := by obtain ⟨h, -⟩ | h := hph <;> simp [h]
  have hpre : s.ph = .pre → s.work.repi = 0 := fun h => by simpa [h] using hph.imp_left fun h' => h'.2.2
  refine ⟨hmsg, (statusGood_running_iff hrun).mpr hstatus, fun _ => ⟨.inr hop, hn, hout, fun h => absurd h hne⟩,
    fun _ _ => ⟨hlt, hpre, htx1, htxr⟩, fun h => by simp [h] at hph, counterGood_iff.mpr fun _ => ?_⟩
  obtain ⟨h, hk, -⟩ | h := hph <;> simp [h, countersAt]
  simp [hk]

/-- TX1 and TXR start with their first repeat, or are over. -/
theorem blockInv_startRepeats {repi rend : Nat} (hle : repi ≤ rend) (hmsg : s.msg.wf = true)
    (hstatus : s.done = false ∧ s.err = 0#2)
    (hstream : (s.req.op = 0x9#4 ∨ s.req.op = 0xA#4) ∧ tooLong s.params s.req.n = false ∧ s.out.length = s.outp)
    (htx1 : s.req.op = 0x9#4 → repi = s.req.repidx ∧ rend = s.req.repidx + 1)
    (htxr : s.req.op = 0xA#4 → rend = s.req.repcnt) : BlockInv (startRepeats repi rend s) := by
  obtain rfl | hlt := hle.eq_or_lt
  · rw [startRepeats_self]
    have herr := hstatus.2
    exact blockInv_of_idle rfl hmsg (statusGood_of_done rfl rfl (by simp [herr]) fun h => absurd herr h)
  obtain rfl | hpos := Nat.eq_zero_or_pos repi
  · rw [startRepeats_zero hlt]
    exact blockInv_of_first_phase (.inl ⟨rfl, rfl, rfl⟩) hmsg hstatus hstream hlt htx1 htxr
  · rw [startRepeats_succ hpos hlt]
    exact blockInv_of_first_phase (.inr rfl) hmsg hstatus hstream hlt htx1 htxr

/-- The meaning of a request ends in a state that meets the invariant, whatever the registers held. -/
theorem blockInv_of_request {i : Instr} (hi : isRequest i = true) (hmsg : s.msg.wf = true) (h : exec i s = .next t) :
    BlockInv t := by
  cases i
  case wordPreamble | wordSync | wordIdle | wordAddress | wordMessage | wordCodeword => cases hi
  case crc10 | par32 | encw | aoff | addrw | msgw | numd => exact blockInv_of_scalar hmsg h
  case reserved0 | reservedC | reservedD | reservedE | reservedF =>
    obtain ⟨-, rfl⟩ := refuseSelector_next.mp h
    exact blockInv_takeRefusal _ hmsg
  case len =>
    refine blockInv_of_withLength hmsg (exec_len.symm.trans h) fun _ _ hnext => ?_
    cases hnext
    exact blockInv_of_idle rfl hmsg (statusGood_of_done rfl rfl (by simp) fun _ => rfl)
  case pack =>
    refine blockInv_of_withLength hmsg (exec_pack.symm.trans h) fun _ hn hnext => ?_
    cases hnext
    exact blockInv_startPack _ hmsg rfl hn rfl rfl rfl
  case tx1 =>
    refine blockInv_of_withLength hmsg (exec_tx1.symm.trans h) fun _ hn hnext => ?_
    cases hnext
    exact blockInv_startRepeats (Nat.le_succ _) hmsg ⟨rfl, rfl⟩ ⟨.inl rfl, hn, rfl⟩ (fun _ => ⟨rfl, rfl⟩) nofun
  case txr =>
    refine blockInv_of_withLength hmsg (exec_txr.symm.trans h) fun _ hn hnext => ?_
    cases hnext
    exact blockInv_startRepeats (Nat.zero_le _) hmsg ⟨rfl, rfl⟩ ⟨.inr rfl, hn, rfl⟩ nofun fun _ => rfl

/-- Every record is a request, of an operation or of a reserved selector (R95, R98). -/
theorem isRequest_decodeRequest (r : Request) : isRequest (decodeRequest r) = true := by
  unfold decodeRequest
  split <;> rfl

/-- Every step of the block keeps the invariant. -/
theorem step_keeps_blockInv (hs : BlockInv s) (h : step s = .next t) : BlockInv t := by
  cases hidle : s.ph.idle with
  | true =>
    obtain ⟨-, r, -, -, hexec⟩ | ⟨hrun, -⟩ | ⟨hrun, -⟩ := step_next h
    · exact blockInv_of_request (s := latch r s) (isRequest_decodeRequest r) hs.1 hexec
    · simp [hidle] at hrun
    · simp [hidle] at hrun
  | false => exact ((step_eq_next_iff hidle).mp h).2.keeps_blockInv hs

end

/-! ### The moves of the host (R260, R262, R275) -/

theorem hostReset_keeps_blockInv {s : State} (hs : BlockInv s) : BlockInv (hostReset s) :=
  blockInv_of_idle rfl hs.1 ⟨by simp [hostReset], by simp [hostReset], fun _ => rfl, fun _ => rfl⟩

theorem hostPresent_keeps_blockInv {s t : State} {r : Request} (hs : BlockInv s) (h : hostPresent r s = .next t) :
    BlockInv t := by
  unfold hostPresent at h
  split at h
  · split at h
    · cases h
      exact hs.of_host_move hs.1
    · cases h
  · cases h

theorem hostWriteMsg_keeps_blockInv {s t : State} {j : Nat} {c : Byte} (hs : BlockInv s)
    (h : hostWriteMsg j c s = .next t) : BlockInv t := by
  unfold hostWriteMsg at h
  split at h
  · cases h
    exact hs.of_host_move (wf_write j c hs.1)
  · cases h

/-- Settles O57: each part of the invariant is kept by every step of the sequencer, established by every request, and
untouched by the host. -/
theorem everyStepKeepsTheInvariant : Obligations.EveryStepKeepsTheInvariant :=
  ⟨fun _ _ => step_keeps_blockInv, fun _ => hostReset_keeps_blockInv, fun _ _ _ => hostPresent_keeps_blockInv,
    fun _ _ _ _ => hostWriteMsg_keeps_blockInv⟩

end Sys2Proof.Machine
end

section
/-! MSG as the host writes it and the block reads it (20_memory.md rule R51): read after write, and the canonical form is
unique. Both go by the lowest index listed, below which everything reads as unwritten. -/

namespace Sys2Proof.Machine

/-- Below the lowest index of a canonical memory nothing is written. -/
theorem read_of_lt_wfFrom {m : Memory} {lo i : Nat} (hm : Memory.wfFrom lo m = true) (hi : i < lo) :
    Memory.read m i = unwrittenChar := by
  induction m generalizing lo with
  | nil => rfl
  | cons c m ih =>
    obtain ⟨a, b⟩ := c
    obtain ⟨hla, -, hrest⟩ := wfFrom_cons.mp hm
    rw [Memory.read, if_neg (by omega), ih hrest (by omega)]

theorem read_cons (a j : Nat) (b : Byte) (m : Memory) :
    Memory.read ((a, b) :: m) j = if a = j then b else Memory.read m j := rfl

/-- A character written reads back, and every other stays. -/
theorem read_write {m : Memory} {lo : Nat} (i j : Nat) (c : Byte) (hm : Memory.wfFrom lo m = true) :
    Memory.read (Memory.write m i c) j = if j = i then c else Memory.read m j := by
  induction m generalizing lo with
  | nil => by_cases hc : c = unwrittenChar <;> simp [Memory.write, Memory.read, hc, eq_comm]
  | cons cell m ih =>
    obtain ⟨a, b⟩ := cell
    obtain ⟨-, -, hrest⟩ := wfFrom_cons.mp hm
    have hlow (k : Nat) (hk : k ≤ a) : Memory.read m k = unwrittenChar := read_of_lt_wfFrom hrest (by omega)
    obtain hlt | rfl | hgt := lt_trichotomy i a
    · by_cases hc : c = unwrittenChar
      · simp only [Memory.write, if_pos hlt, if_pos hc, read_cons]
        grind
      · simp only [Memory.write, if_pos hlt, if_neg hc, read_cons, eq_comm]
    · by_cases hc : c = unwrittenChar
      · simp only [Memory.write, lt_irrefl, if_false, if_true, if_pos hc, read_cons]
        grind
      · simp only [Memory.write, lt_irrefl, if_false, if_true, if_neg hc, read_cons]
        grind
    · simp only [Memory.write, if_neg hgt.not_gt, if_neg hgt.ne', read_cons, ih hrest]
      grind

/-- The index of a written character is not below the lowest one listed. -/
theorem le_of_read_ne {m : Memory} {lo i : Nat} (hm : Memory.wfFrom lo m = true)
    (hi : Memory.read m i ≠ unwrittenChar) : lo ≤ i :=
  not_lt.mp fun hlt => hi (read_of_lt_wfFrom hm hlt)

/-- A canonical memory lists exactly what it reads as written, so two that read alike are equal. -/
theorem eq_of_read_eq {m m' : Memory} {lo lo' : Nat} (hm : Memory.wfFrom lo m = true)
    (hm' : Memory.wfFrom lo' m' = true) (hread : ∀ i, Memory.read m i = Memory.read m' i) : m = m' := by
  have hhead (a : Nat) (b : Byte) (n : Memory) : Memory.read ((a, b) :: n) a = b := if_pos rfl
  induction m generalizing lo lo' m' with
  | nil =>
    cases m' with
    | nil => rfl
    | cons cell' m' => exact absurd ((hhead ..).symm.trans (hread cell'.1).symm) (wfFrom_cons.mp hm').2.1
  | cons cell m ih =>
    cases m' with
    | nil => exact absurd ((hhead ..).symm.trans (hread cell.1)) (wfFrom_cons.mp hm).2.1
    | cons cell' m' =>
      obtain ⟨a, b⟩ := cell
      obtain ⟨a', b'⟩ := cell'
      obtain ⟨-, hb, hrest⟩ := wfFrom_cons.mp hm
      obtain ⟨-, hb', hrest'⟩ := wfFrom_cons.mp hm'
      have hle : a' ≤ a := le_of_read_ne (wfFrom_cons.mpr ⟨le_rfl, hb', hrest'⟩) (by rwa [← hread, hhead])
      have hge : a ≤ a' := le_of_read_ne (wfFrom_cons.mpr ⟨le_rfl, hb, hrest⟩) (by rwa [hread, hhead])
      obtain rfl : a = a' := le_antisymm hge hle
      obtain rfl : b = b' := by simpa [hhead] using hread a
      have htail : m = m' := ih hrest hrest' fun i => by
        by_cases hi : i = a
        · rw [read_of_lt_wfFrom hrest (by omega), read_of_lt_wfFrom hrest' (by omega)]
        · simpa [read_cons, Ne.symm hi] using hread i
      rw [htail]

/-- Settles O60 (R51, log 8): a write is read back, keeps the canonical form, and that form is unique. -/
theorem messageSpaceLaws : Obligations.MessageSpaceLaws :=
  ⟨fun _ i c hm => wf_write i c hm, fun _ i j c hm => read_write i j c hm, fun _ _ hm hm' => eq_of_read_eq hm hm'⟩

end Sys2Proof.Machine
end

section
/-! Where the words of a transmission stand: the Syncs of the injector (43_sync_injector.md rule R184), the map of OUT for
one repeat and for a sequence of repeats (20_memory.md rules R59 and R60), and the length of both (45_length_estimator.md
rules R227 to R229). A repeat is a batch-start Sync, the injector's sequence of all its data words, and Idle words. -/

namespace Sys2Proof.Machine

/-! ### The closed form of LEN (R227, R229) -/

/-- Settles O21 (R227, R229): a batch of seventeen words per started sixteen data words, the terminator counted. -/
theorem lenClosedForm : Obligations.LenClosedForm := by
  have hform (repidx : Nat) (a : BitVec 21) (mode : Mode) (n : Nat) : lengthOf repidx a n mode =
      17 * ((a.toNat % 8 * 2 + 1 + (n * unitBits mode + 19) / 20) / 16 + 1) + if repidx = 0 then 18 else 0 := by
    rw [lengthOf, dataWords, withSyncs_padToBatch_succ, addressOffset_toNat]
  refine ⟨hform, fun repidx a mode n m hnm => ?_⟩
  have hbits : n * unitBits mode ≤ 7 * m := by
    rw [Nat.mul_comm]
    exact Nat.mul_le_mul (unitBits_le mode) hnm
  have hpre : (if repidx = 0 then 18 else 0) ≤ 18 := by split <;> decide
  rw [hform]
  omega

/-! ### The injected Syncs (R184) -/

/-- A word that fills a slot before the last one stays where it is. -/
theorem inject_cons_of_lt {s : Nat} (w : Word) (ws : List Word) (hs : s < 15) :
    inject s (w :: ws) = w :: inject (s + 1) ws := by
  rw [inject, if_neg (by omega)]

/-- A Sync follows the word that fills slot 15. -/
theorem inject_cons_last (w : Word) (ws : List Word) : inject 15 (w :: ws) = w :: syncWord :: inject 0 ws := rfl

/-- Message codeword `k` stands behind the Syncs of the batches filled before it. -/
theorem inject_getElem?_word (ws : List Word) {s k : Nat} (hs : s ≤ 15) :
    (inject s ws)[k + (s + k) / 16]? = ws[k]? := by
  induction ws generalizing s k with
  | nil => simp [inject]
  | cons w ws ih =>
    cases k with
    | zero =>
      obtain rfl | hlt := hs.eq_or_lt
      · simp [inject_cons_last]
      · simp [inject_cons_of_lt w ws hlt, show s / 16 = 0 by omega]
    | succ k =>
      obtain rfl | hlt := hs.eq_or_lt
      · have hpos : k + 1 + (15 + (k + 1)) / 16 = k + (0 + k) / 16 + 1 + 1 := by omega
        rw [inject_cons_last, hpos, List.getElem?_cons_succ, List.getElem?_cons_succ, ih (Nat.zero_le 15),
          List.getElem?_cons_succ]
      · have hpos : k + 1 + (s + (k + 1)) / 16 = k + (s + 1 + k) / 16 + 1 := by omega
        rw [inject_cons_of_lt w ws hlt, hpos, List.getElem?_cons_succ, ih hlt, List.getElem?_cons_succ]

/-- Right behind the word that fills a batch stands a Sync. -/
theorem inject_getElem?_sync (ws : List Word) {s k : Nat} (hs : s ≤ 15) (hk : 1 ≤ k) (hlen : k ≤ ws.length)
    (hfull : (s + k) % 16 = 0) : (inject s ws)[k + (s + k) / 16 - 1]? = some syncWord := by
  induction ws generalizing s k with
  | nil => simp at hlen; omega
  | cons w ws ih =>
    obtain rfl | hlt := hs.eq_or_lt
    · obtain rfl | hmore := hk.eq_or_lt
      · rfl
      · have hpos : k + (15 + k) / 16 - 1 = (k - 1) + (0 + (k - 1)) / 16 - 1 + 1 + 1 := by omega
        rw [inject_cons_last, hpos, List.getElem?_cons_succ, List.getElem?_cons_succ]
        exact ih (Nat.zero_le 15) (by omega) (by simpa using hlen) (by omega)
    · have hpos : k + (s + k) / 16 - 1 = (k - 1) + (s + 1 + (k - 1)) / 16 - 1 + 1 := by omega
      rw [inject_cons_of_lt w ws hlt, hpos, List.getElem?_cons_succ]
      exact ih hlt (by omega) (by simpa using hlen) (by omega)

/-- Settles O25 (R184): along the words, the injector's slot counter is the number of words modulo 16. -/
theorem injectedSyncPositions : Obligations.InjectedSyncPositions := fun _ ws hs =>
  ⟨inject_length ws (by omega), fun _ _ => inject_getElem?_word ws hs, fun _ => inject_getElem?_sync ws hs⟩

/-! ### One repeat (R59) -/

/-- Words that do not fill the batch pass the injector unchanged. -/
theorem inject_append_of_lt (us ws : List Word) {s : Nat} (h : s + us.length ≤ 15) :
    inject s (us ++ ws) = us ++ inject (s + us.length) ws := by
  induction us generalizing s with
  | nil => rfl
  | cons u us ih =>
    simp only [List.length_cons] at h
    rw [List.cons_append, inject_cons_of_lt _ _ (by omega), ih (by omega), List.length_cons, List.cons_append,
      Nat.add_assoc s, Nat.add_comm 1]

section
variable (p : Config.Params) (a : BitVec 21) (fb : BitVec 2) (mode : Mode) (msg : List Byte)

/-- The data words of a repeat before the terminator: leading Idles, address, payload (R198 to R200). -/
def repeatData : List Word :=
  List.replicate (addressOffset a).toNat idleWord ++ [addressWord a fb] ++ payloadWords p mode msg

/-- A repeat without its preamble: steps 2 to 7 (R197 to R202). -/
def repeatWords : List Word := repeatBody p a fb mode msg ++ paddingWords (repeatBody p a fb mode msg).length

theorem tx1Words_eq (repidx : Nat) :
    tx1Words p repidx a fb mode msg = preambleWords repidx ++ repeatWords p a fb mode msg := List.append_assoc ..

theorem repeatData_length_add_one : (repeatData p a fb mode msg).length + 1 = dataWords a mode msg.length := by
  simp only [repeatData, List.length_append, List.length_replicate, List.length_singleton, payloadWords_length,
    groupCount, dataWords, Nat.mul_comm (unitBits mode)]

/-- The body of a repeat: the leading words and the payload go through one injector, started at slot 0. -/
theorem repeatBody_eq_inject :
    repeatBody p a fb mode msg = syncWord :: inject 0 (repeatData p a fb mode msg) ++ [idleWord] := by
  have hslot : 0 + (List.replicate (addressOffset a).toNat idleWord ++ [addressWord a fb]).length ≤ 15 := by
    simp only [List.length_append, List.length_replicate, List.length_singleton, addressOffset_toNat]
    omega
  rw [repeatData, inject_append_of_lt _ _ hslot, repeatBody]
  simp [List.append_assoc]

/-- A repeat fills whole batches. -/
theorem repeatWords_length :
    (repeatWords p a fb mode msg).length = 17 * ((repeatData p a fb mode msg).length / 16 + 1) := by
  have hbody := repeatBody_length p a fb mode msg (repeatData_length_add_one p a fb mode msg).symm
  rw [repeatWords, List.length_append, hbody, add_paddingWords_length]

/-- Behind its data words and their Syncs a repeat holds Idles only: the terminator and the padding. -/
theorem exists_repeatWords_eq : ∃ n, repeatWords p a fb mode msg =
    syncWord :: (inject 0 (repeatData p a fb mode msg) ++ List.replicate n idleWord) := by
  refine ⟨(17 - (repeatBody p a fb mode msg).length % 17) % 17 + 1, ?_⟩
  rw [repeatWords, paddingWords, List.replicate_succ]
  nth_rewrite 1 [repeatBody_eq_inject]
  simp

/-- The word at position `j` of a repeat: a Sync at every multiple of 17, the data words in the slots between, and Idles
behind them. -/
theorem repeatWords_getElem? {j : Nat} (hj : j < (repeatWords p a fb mode msg).length) :
    (repeatWords p a fb mode msg)[j]? =
      some (if j % 17 = 0 then syncWord else (repeatData p a fb mode msg).getD (j - 1 - j / 17) idleWord) := by
  obtain ⟨n, heq⟩ := exists_repeatWords_eq p a fb mode msg
  have htotal := repeatWords_length p a fb mode msg
  rw [htotal] at hj
  rw [heq] at htotal ⊢
  generalize repeatData p a fb mode msg = ds at hj htotal ⊢
  have hlen : (inject 0 ds).length = ds.length + ds.length / 16 := by
    rw [inject_length ds (by decide), Nat.zero_add]
  rw [List.length_cons, List.length_append, List.length_replicate, hlen] at htotal
  cases j with
  | zero => rfl
  | succ i =>
    rw [List.getElem?_cons_succ]
    obtain hin | hbehind := lt_or_ge i (ds.length + ds.length / 16)
    · rw [List.getElem?_append_left (by omega)]
      by_cases hsync : (i + 1) % 17 = 0
      · have hpos : i = (i + 1 - (i + 1) / 17) + (0 + (i + 1 - (i + 1) / 17)) / 16 - 1 := by omega
        rw [if_pos hsync, hpos]
        exact inject_getElem?_sync ds (Nat.zero_le 15) (by omega) (by omega) (by omega)
      · have hpos : i = (i + 1 - 1 - (i + 1) / 17) + (0 + (i + 1 - 1 - (i + 1) / 17)) / 16 := by omega
        have hslot : i + 1 - 1 - (i + 1) / 17 < ds.length := by omega
        rw [if_neg hsync, List.getD_eq_getElem _ _ hslot, ← List.getElem?_eq_getElem hslot]
        conv_lhs => rw [hpos]
        exact inject_getElem?_word ds (Nat.zero_le 15)
    · have hsync : ¬(i + 1) % 17 = 0 := by omega
      rw [List.getElem?_append_right (by omega), List.getElem?_replicate, if_pos (by omega), if_neg hsync,
        List.getD_eq_default _ _ (by omega)]

/-- The data word in a slot: leading Idles below the address's slot, the address, the payload (R59). -/
theorem repeatData_getD (slot : Nat) : (repeatData p a fb mode msg).getD slot idleWord =
    if slot < (addressOffset a).toNat then idleWord
    else if slot = (addressOffset a).toNat then addressWord a fb
    else (payloadWords p mode msg).getD (slot - (addressOffset a).toNat - 1) idleWord := by
  rw [repeatData, List.append_assoc]
  generalize (addressOffset a).toNat = aoff
  obtain hlt | rfl | hgt := lt_trichotomy slot aoff
  · rw [if_pos hlt, List.getD_append _ _ _ _ (by simpa using hlt), List.getD_replicate _ hlt]
  · rw [if_neg (lt_irrefl _), if_pos rfl, List.getD_append_right _ _ _ _ (by simp)]
    simp
  · obtain ⟨k, rfl⟩ : ∃ k, slot = aoff + (k + 1) := ⟨slot - aoff - 1, by omega⟩
    rw [if_neg hgt.not_gt, if_neg hgt.ne', List.getD_append_right _ _ _ _ (by simp), List.length_replicate,
      Nat.add_sub_cancel_left, List.singleton_append, List.getD_cons_succ, Nat.add_sub_cancel]

theorem mapWord_eq (j : Nat) : mapWord a fb (payloadWords p mode msg) j =
    if j % 17 = 0 then syncWord else (repeatData p a fb mode msg).getD (j - 1 - j / 17) idleWord := by
  rw [repeatData_getD, mapWord]

end

theorem preambleWords_eq_replicate (repidx : Nat) :
    preambleWords repidx = List.replicate (preambleLength repidx) preambleWord := by
  unfold preambleWords preambleLength
  split <;> rfl

/-- Settles O53 (R59): behind the preamble, the words of a repeat in their slots, in whole batches. -/
theorem mapOfOneRepeat : Obligations.MapOfOneRepeat := by
  intro p repidx a fb mode msg
  have hpre : (preambleWords repidx).length = preambleLength repidx := preambleWords_length repidx
  rw [tx1Words_eq]
  refine ⟨fun k hk => ?_, fun j hj => ?_, ?_⟩
  · rw [List.getElem?_append_left (by omega), preambleWords_eq_replicate, List.getElem?_replicate, if_pos hk]
  · rw [List.length_append] at hj
    rw [List.getElem?_append_right (by omega), hpre, Nat.add_sub_cancel_left, mapWord_eq]
    exact repeatWords_getElem? p a fb mode msg (by omega)
  · rw [List.length_append, hpre, Nat.add_sub_cancel_left, repeatWords_length]
    exact Nat.mul_mod_right 17 _

/-! ### A sequence of repeats (R60, R228) -/

section
variable (p : Config.Params) (a : BitVec 21) (fb : BitVec 2) (mode : Mode) (msg : List Byte)

/-- The repeats laid end to end, the first one without its preamble. -/
def repeatsWords (m : Nat) : List Word := (List.replicate m (repeatWords p a fb mode msg)).flatten

theorem repeatsWords_succ (m : Nat) :
    repeatsWords p a fb mode msg (m + 1) = repeatWords p a fb mode msg ++ repeatsWords p a fb mode msg m := rfl

@[simp] theorem repeatsWords_length (m : Nat) :
    (repeatsWords p a fb mode msg m).length = m * (repeatWords p a fb mode msg).length := by
  simp [repeatsWords]

/-- A later repeat has no preamble. -/
theorem tx1Words_succ (i : Nat) : tx1Words p (i + 1) a fb mode msg = repeatWords p a fb mode msg := by
  rw [tx1Words_eq]
  rfl

/-- Only the first repeat has a preamble. -/
theorem txrWords_succ (m : Nat) : txrWords p (m + 1) a fb mode msg =
    List.replicate 18 preambleWord ++ repeatsWords p a fb mode msg (m + 1) := by
  have hlater : (List.range m).flatMap (fun i => tx1Words p (i + 1) a fb mode msg) =
      repeatsWords p a fb mode msg m := by
    simp [tx1Words_succ, repeatsWords, List.flatMap, List.map_const']
  rw [txrWords, List.range_succ_eq_map, List.flatMap_cons, List.flatMap_map, hlater, tx1Words_eq, repeatsWords_succ,
    List.append_assoc]
  rfl

/-- The estimator's length of a later repeat (R228). -/
theorem lengthOf_one : lengthOf 1 a msg.length mode = (repeatWords p a fb mode msg).length := by
  rw [lenIsTheLengthOfTx1 p 1 a fb, tx1Words_succ]

/-- A Sync starts every batch of every repeat. -/
theorem repeatsWords_getElem?_sync {m k : Nat} (h : 17 * k < (repeatsWords p a fb mode msg m).length) :
    (repeatsWords p a fb mode msg m)[17 * k]? = some syncWord := by
  induction m generalizing k with
  | zero => cases h
  | succ m ih =>
    rw [repeatsWords_succ] at h ⊢
    obtain hin | hbehind := lt_or_ge (17 * k) (repeatWords p a fb mode msg).length
    · rw [List.getElem?_append_left hin, repeatWords_getElem? _ _ _ _ _ hin, if_pos (Nat.mul_mod_right 17 k)]
    · have hlen := repeatWords_length p a fb mode msg
      rw [List.length_append] at h
      rw [List.getElem?_append_right hbehind, hlen, ← Nat.mul_sub]
      exact ih (by omega)

end

/-- Settles O54 (R60, R228): a preamble, and then repeats of whole batches. -/
theorem mapOfRepeats : Obligations.MapOfRepeats := by
  intro p repcnt a fb mode msg
  cases repcnt with
  | zero => exact ⟨nofun, fun _ => rfl, fun m hm => by cases hm⟩
  | succ r =>
    rw [txrWords_succ]
    refine ⟨fun _ => ⟨?_, List.take_left' List.length_replicate⟩, nofun, fun m hm => ?_⟩
    · rw [List.length_append, List.length_replicate, repeatsWords_length, lengthOf_one]
    · rw [List.length_append, List.length_replicate] at hm
      rw [List.getElem?_append_right (by simp), List.length_replicate, Nat.add_sub_cancel_left]
      exact repeatsWords_getElem?_sync _ _ _ _ _ (by omega)

end Sys2Proof.Machine
end

section
/-! Phase PAYLOAD as a run of steps (42_payload_packer.md rules R156 to R159, 43_sync_injector.md rule R181,
44_frame_composer.md rule R211). What ACC holds is a bit string, what the message still gives is the rest of its bits, and
the groups of the two joined are the words still to come. -/

namespace Sys2Proof.Machine

/-! ### Groups of a bit string, from the front (R158, R159) -/

theorem groups_nil : groups [] = [] := rfl

/-- Twenty bits are a group, and the groups of the rest follow. -/
theorem groups_append {held : List Bool} (hlen : held.length = 20) (rest : List Bool) :
    groups (held ++ rest) = bitsValue held :: groups rest := by
  have hcount : groupCount (held ++ rest).length = groupCount rest.length + 1 := by
    simp only [groupCount, List.length_append, hlen]
    omega
  have hfirst : groupAt (held ++ rest) 0 = bitsValue held := by
    simp [groupAt, List.take_left' hlen, hlen]
  have hnext (g : Nat) : groupAt (held ++ rest) (g + 1) = groupAt rest g := by
    have hdrop : (held ++ rest).drop (20 * (g + 1)) = rest.drop (20 * g) := by
      rw [Nat.mul_succ, Nat.add_comm, ← List.drop_drop, List.drop_left' hlen]
    simp only [groupAt, hdrop]
  rw [groups, hcount, List.range_succ_eq_map, List.map_cons, hfirst, List.map_map, groups]
  exact congrArg _ (List.map_congr_left fun g _ => hnext g)

/-- A partial group is filled with zeros. -/
theorem groups_of_partial {held : List Bool} (hpos : held ≠ []) (hlen : held.length ≤ 20) :
    groups held = [bitsValue (held ++ List.replicate (20 - held.length) false)] := by
  have hcount : groupCount held.length = 1 := by
    have := List.length_pos_iff.mpr hpos
    simp only [groupCount]
    omega
  simp [groups, hcount, groupAt, List.take_of_length_le hlen]

/-- Zeros behind a bit string are a shift of its value (R158). -/
theorem bitsValue_append_false (bits : List Bool) (n : Nat) :
    bitsValue (bits ++ List.replicate n false) = bitsValue bits <<< n := by
  induction n with
  | zero => simp
  | succ n ih =>
    rw [List.replicate_succ', ← List.append_assoc, bitsValue_concat, ih, BitVec.shiftLeft_add]
    simp

@[simp] theorem messageOf_length (m : Memory) (n : Nat) : (messageOf m n).length = n := by simp [messageOf]

theorem messageOf_getD (m : Memory) {n i : Nat} (hi : i < n) : (messageOf m n).getD i 0 = Memory.read m i := by
  simp [messageOf, hi]

/-! ### Runs that append words -/

/-- `s` runs to `t` in at most `bound` steps, which append `ws`. -/
structure Run (s t : State) (bound : Nat) (ws : List Word) : Prop where
  run : ∃ k ≤ bound, stepN k s = .next t
  out : t.out = s.out ++ ws
  outp : t.outp = s.outp + ws.length
  inputs : SameInputs s t

/-- A run inside a repeat: CNT counts the words but in PACK (R219), and the repeats' registers stay. -/
structure CountedRun (s t : State) (bound : Nat) (ws : List Word) : Prop extends Run s t bound ws where
  cnt : s.req.op ≠ packOp → t.work.cnt = nextCount^[ws.length] s.work.cnt
  repi : t.work.repi = s.work.repi
  rend : t.work.rend = s.work.rend

section
variable {s t u : State} {m n : Nat} {vs ws : List Word}

theorem SameInputs.refl (s : State) : SameInputs s s := ⟨rfl, rfl, rfl, rfl, rfl⟩

theorem SameInputs.trans (h : SameInputs s t) (h' : SameInputs t u) : SameInputs s u :=
  ⟨h'.msg.trans h.msg, h'.req.trans h.req, h'.err.trans h.err, h'.port.trans h.port, h'.params.trans h.params⟩

/-- One run after another. -/
theorem stepN_add (h : stepN m s = .next t) : stepN (m + n) s = stepN n t := by
  induction m generalizing s with
  | zero =>
    cases h
    rw [Nat.zero_add]
  | succ m ih =>
    rw [stepN] at h
    cases hstep : step s with
    | next v =>
      simp only [hstep] at h
      rw [Nat.succ_add, stepN_succ _ hstep, ih h]
    | fault | refused => simp [hstep] at h

theorem Run.refl (s : State) : Run s s 0 [] := ⟨⟨0, le_rfl, rfl⟩, by simp, rfl, .refl s⟩

theorem Run.trans (h : Run s t m vs) (h' : Run t u n ws) : Run s u (m + n) (vs ++ ws) := by
  obtain ⟨k, hk, hrun⟩ := h.run
  obtain ⟨k', hk', hrun'⟩ := h'.run
  refine ⟨⟨k + k', by omega, (stepN_add hrun).trans hrun'⟩, ?_, ?_, h.inputs.trans h'.inputs⟩
  · rw [h'.out, h.out, List.append_assoc]
  · rw [h'.outp, h.outp, List.length_append, Nat.add_assoc]

theorem Run.mono (h : Run s t m ws) (hmn : m ≤ n) : Run s t n ws := by
  obtain ⟨k, hk, hrun⟩ := h.run
  exact ⟨⟨k, hk.trans hmn, hrun⟩, h.out, h.outp, h.inputs⟩

/-- One step of the sequencer is a run. -/
theorem SeqStep.to_run (h : SeqStep s t) (hport : s.port = none) (hout : t.out = s.out ++ ws) : Run s t 1 ws := by
  have hcount := h.outp_add
  rw [hout, List.length_append] at hcount
  exact ⟨⟨1, le_rfl, by rw [stepN_succ 0 (h.step_eq hport)]; rfl⟩, hout, by omega, h.sameInputs⟩

theorem CountedRun.refl (s : State) : CountedRun s s 0 [] := ⟨.refl s, fun _ => rfl, rfl, rfl⟩

theorem CountedRun.trans (h : CountedRun s t m vs) (h' : CountedRun t u n ws) : CountedRun s u (m + n) (vs ++ ws) := by
  refine ⟨h.toRun.trans h'.toRun, fun hop => ?_, h'.repi.trans h.repi, h'.rend.trans h.rend⟩
  rw [h'.cnt (h.inputs.req ▸ hop), h.cnt hop, List.length_append, Nat.add_comm, Function.iterate_add_apply]

theorem CountedRun.mono (h : CountedRun s t m ws) (hmn : m ≤ n) : CountedRun s t n ws :=
  ⟨h.toRun.mono hmn, h.cnt, h.repi, h.rend⟩

end

/-! ### The packer between two groups (R156 to R158, R181) -/

/-- The bits of the latched request's message. -/
def messageBits (s : State) : List Bool := payloadBits s.params (modeOf s) (messageOf s.msg s.req.n)

@[simp] theorem messageBits_length (s : State) : (messageBits s).length = unitBits (modeOf s) * s.req.n := by
  simp [messageBits]

theorem SameInputs.messageBits_eq {s t : State} (h : SameInputs s t) : messageBits t = messageBits s := by
  rw [messageBits, messageBits, modeOf, modeOf, h.params, h.req, h.msg]

/-- In phase PAYLOAD with no Sync pending: ACC holds the bits `held`, the message still gives `rest`, and `slot` data
slots of the batch are filled. -/
structure Packing (s : State) (slot : Nat) (held rest : List Bool) : Prop where
  ph : s.ph = .payload
  port : s.port = none
  sp : s.work.sp = false
  acc : s.work.acc = bitsValue held
  nb : s.work.nb.toNat = held.length
  wpos : s.work.wpos.toNat = slot
  bi : s.work.bi.toNat < unitBits (modeOf s)
  rest : (messageBits s).drop (unitBits (modeOf s) * s.work.ci + s.work.bi.toNat) = rest

section
variable {s : State} {slot : Nat} {held rest : List Bool}

theorem Packing.slot_le (h : Packing s slot held rest) : slot ≤ 15 := by
  have := s.work.wpos.isLt
  rw [h.wpos] at this
  omega

/-- While bits are left, so are characters. -/
theorem Packing.ci_lt {b : Bool} (h : Packing s slot held (b :: rest)) : s.work.ci < s.req.n := by
  have hlen := congrArg List.length h.rest
  rw [List.length_drop, messageBits_length, List.length_cons] at hlen
  exact Nat.lt_of_mul_lt_mul_left (a := unitBits (modeOf s)) (by omega)

/-- With no bit left the message is used up. -/
theorem Packing.ci_ge (h : Packing s slot held []) : s.req.n ≤ s.work.ci := by
  have hlen := List.drop_eq_nil_iff.mp h.rest
  have hbi := h.bi
  rw [messageBits_length] at hlen
  refine Nat.le_of_lt_succ (Nat.lt_of_mul_lt_mul_left (a := unitBits (modeOf s)) ?_)
  rw [Nat.mul_succ]
  omega

/-- The bit that the shift step takes is the first one left (R156). -/
theorem Packing.head_eq {b : Bool} (h : Packing s slot held (b :: rest)) :
    charBit s.params (modeOf s) (Memory.read s.msg s.work.ci) s.work.bi.toNat = b := by
  have hlen : s.work.ci < (messageOf s.msg s.req.n).length := by simpa using h.ci_lt
  have hhead := congrArg (fun l => l.getD 0 false) h.rest
  rw [messageBits] at hhead
  simp only [List.getD_eq_getElem?_getD, List.getElem?_drop, Nat.add_zero] at hhead
  rw [← List.getD_eq_getElem?_getD, payloadBits_getD _ _ hlen h.bi, messageOf_getD _ h.ci_lt] at hhead
  simpa using hhead

/-- A shift step moves the first bit left into ACC. -/
theorem Packing.shift {b : Bool} (h : Packing s slot held (b :: rest)) (hheld : held.length < 20) :
    CountedRun s (shiftStep s) 1 [] ∧ Packing (shiftStep s) slot (held ++ [b]) rest := by
  have hfull : s.work.nb ≠ 20#5 := fun hnb => by
    have := h.nb
    simp [hnb] at this
    omega
  have hstep := SeqStep.shift h.ph h.sp hfull h.ci_lt
  have hrest : (messageBits s).drop (unitBits (modeOf s) * s.work.ci + s.work.bi.toNat + 1) = rest := by
    rw [← List.tail_drop, h.rest, List.tail_cons]
  have hmode : modeOf (shiftStep s) = modeOf s := rfl
  have hwork := shiftStep_work h.bi
  refine ⟨⟨hstep.to_run h.port (by simp), fun _ => rfl, rfl, rfl⟩, h.ph, h.port, h.sp, ?_, ?_, h.wpos, ?_, ?_⟩
  · rw [bitsValue_concat, ← h.acc, ← h.head_eq]
    rfl
  · have hnb := h.nb
    show (s.work.nb + 1).toNat = _
    rw [List.length_append, List.length_singleton]
    bv_omega
  · rw [hmode]
    obtain ⟨hmore, -, hbi⟩ | ⟨-, -, hbi⟩ := hwork
    · rwa [hbi]
    · rw [hbi]
      exact unitBits_pos _
  · rw [hmode, hstep.sameInputs.messageBits_eq, ← hrest]
    obtain ⟨-, hci, hbi⟩ | ⟨hlast, hci, hbi⟩ := hwork
    · rw [hci, hbi, Nat.add_assoc]
    · rw [hci, hbi, Nat.mul_succ, ← hlast]
      rfl

/-- The pad step fills a partial group with zeros (R158). -/
theorem Packing.fill (h : Packing s slot held []) (hpos : held ≠ []) (hheld : held.length < 20) :
    CountedRun s (fillStep s) 1 [] ∧
      Packing (fillStep s) slot (held ++ List.replicate (20 - held.length) false) [] := by
  have hnb := h.nb
  have hlen := List.length_pos_iff.mpr hpos
  have hstep : SeqStep s (fillStep s) := .fill h.ph h.sp (by bv_omega) h.ci_ge (by bv_omega)
  refine ⟨⟨hstep.to_run h.port (by simp), fun _ => rfl, rfl, rfl⟩, h.ph, h.port, h.sp, ?_, ?_, h.wpos, h.bi, h.rest⟩
  · rw [bitsValue_append_false, ← h.acc, ← hnb]
    rfl
  · rw [List.length_append, List.length_replicate, Nat.add_sub_cancel' hheld.le]
    rfl

/-- The injector's words for one word are that word, and the Sync behind it where it fills the batch (R181). -/
theorem inject_cons (w : Word) (ws : List Word) (hslot : slot ≤ 15) :
    inject slot (w :: ws) = inject slot [w] ++ inject ((slot + 1) % 16) ws := by
  obtain rfl | hlt := hslot.eq_or_lt
  · rfl
  · rw [inject_cons_of_lt _ _ hlt, inject_cons_of_lt _ _ hlt, Nat.mod_eq_of_lt (by omega)]
    rfl

/-- With ACC empty and the character left alone, the packer goes on with the same bits. -/
theorem Packing.of_empty {t : State} {slot' : Nat} (h : Packing s slot held rest) (hin : SameInputs s t)
    (hph : t.ph = .payload) (hwork : t.work.sp = false ∧ t.work.acc = 0 ∧ t.work.nb = 0)
    (hwpos : t.work.wpos.toNat = slot') (hchar : t.work.ci = s.work.ci ∧ t.work.bi = s.work.bi) :
    Packing t slot' [] rest := by
  obtain ⟨hsp, hacc, hnb⟩ := hwork
  have hmode : modeOf t = modeOf s := by rw [modeOf, hin.req, modeOf]
  refine ⟨hph, hin.port.trans h.port, hsp, hacc, by rw [hnb]; rfl, hwpos, ?_, ?_⟩
  · rw [hmode, hchar.2]
    exact h.bi
  · rw [hmode, hchar.1, hchar.2, hin.messageBits_eq]
    exact h.rest

/-- The flush step, and the pending Sync where the batch is full, append the injector's words (R157, R181). -/
theorem Packing.flush (h : Packing s slot held rest) (hheld : held.length = 20) :
    ∃ t, CountedRun s t (1 + (slot + 1) / 16) (inject slot [messageWord (bitsValue held)]) ∧
      Packing t ((slot + 1) % 16) [] rest := by
  have hnb : s.work.nb = 20#5 := by
    have := h.nb
    bv_omega
  have hstep := SeqStep.flush h.ph h.sp hnb
  have hslot := h.wpos
  have hflush : CountedRun s (flushStep s) 1 [messageWord (bitsValue held)] :=
    ⟨hstep.to_run h.port (by rw [flushStep_out, h.acc]), fun hop => if_neg hop, rfl, rfl⟩
  obtain rfl | hlt := h.slot_le.eq_or_lt
  · have hwrap : s.work.wpos = 15#4 := by bv_omega
    have hsp : (flushStep s).work.sp = true := by simp [syncAfter, hwrap]
    have hsync := SeqStep.pendingSync (s := flushStep s) h.ph hsp
    have hrun : CountedRun (flushStep s) (pendingSyncStep (flushStep s)) 1 [syncWord] :=
      ⟨hsync.to_run h.port (pendingSyncStep_out _), fun hop => if_neg hop, rfl, rfl⟩
    have hwords : inject 15 [messageWord (bitsValue held)] = [messageWord (bitsValue held)] ++ [syncWord] := rfl
    rw [hwords]
    have hboth := hflush.trans hrun
    have hwpos : (pendingSyncStep (flushStep s)).work.wpos.toNat = (15 + 1) % 16 := by simp [nextSlot, hwrap]
    have hph : (pendingSyncStep (flushStep s)).ph = .payload := by simpa using h.ph
    exact ⟨_, hboth, h.of_empty hboth.inputs hph ⟨rfl, rfl, rfl⟩ hwpos ⟨rfl, rfl⟩⟩
  · have hwrap : s.work.wpos ≠ 15#4 := by bv_omega
    rw [inject_cons_of_lt _ _ hlt, Nat.mod_eq_of_lt (by omega)]
    have hsp : (flushStep s).work.sp = false := by simpa [syncAfter, hwrap] using h.sp
    have hwpos : (flushStep s).work.wpos.toNat = slot + 1 := by
      simp only [flushStep_work, nextSlot, if_neg hwrap]
      bv_omega
    exact ⟨_, hflush.mono (by omega), h.of_empty hflush.inputs h.ph ⟨hsp, rfl, rfl⟩ hwpos ⟨rfl, rfl⟩⟩

/-- The packer appends the words of the groups of what it holds and what is left, and ends with nothing in ACC. -/
theorem Packing.run (h : Packing s slot held rest) (hheld : held.length < 20) :
    ∃ t slot', CountedRun s t
        (rest.length + 1 + groupCount (held ++ rest).length + (slot + groupCount (held ++ rest).length) / 16)
        (inject slot ((groups (held ++ rest)).map messageWord)) ∧
      Packing t slot' [] [] := by
  induction rest generalizing s slot held with
  | nil =>
    by_cases hempty : held = []
    · subst hempty
      exact ⟨s, slot, (CountedRun.refl s).mono (Nat.zero_le _), h⟩
    · obtain ⟨hfill, h'⟩ := h.fill hempty hheld
      have hcount : groupCount held.length = 1 := by
        have := List.length_pos_iff.mpr hempty
        simp only [groupCount]
        omega
      obtain ⟨t, hflush, ht⟩ := h'.flush (by simp; omega)
      rw [List.append_nil, groups_of_partial hempty hheld.le, hcount]
      exact ⟨t, _, (hfill.trans hflush).mono (by simp; omega), ht⟩
  | cons b rest ih =>
    obtain ⟨hshift, h'⟩ := h.shift hheld
    have hsplit : held ++ b :: rest = held ++ [b] ++ rest := by simp
    rw [hsplit]
    by_cases hfull : (held ++ [b]).length = 20
    · obtain ⟨t, hflush, ht⟩ := h'.flush hfull
      obtain ⟨u, slot', hrun, hu⟩ := ih ht (by decide)
      have hcount : groupCount (held ++ [b] ++ rest).length = groupCount ([] ++ rest).length + 1 := by
        rw [List.length_append, hfull]
        simp only [groupCount, List.nil_append]
        omega
      have hslot := h.slot_le
      rw [groups_append hfull, List.map_cons, inject_cons _ _ hslot, hcount]
      refine ⟨u, slot', (hshift.trans (hflush.trans hrun)).mono ?_, hu⟩
      simp only [List.length_cons]
      omega
    · have hlt : (held ++ [b]).length < 20 := by
        rw [List.length_append, List.length_singleton] at hfull ⊢
        omega
      obtain ⟨u, slot', hrun, hu⟩ := ih h' hlt
      refine ⟨u, slot', (hshift.trans hrun).mono ?_, hu⟩
      simp only [List.length_cons]
      omega

end

end Sys2Proof.Machine
end

section
/-! The stream operations from their start to DONE (44_frame_composer.md rules R203 to R216): the sequencer's run through
a repeat, the repeats one after another, and what a completed operation leaves. No request depends on what an earlier one
left behind (10_state.md rule R20, rule R218). -/

namespace Sys2Proof.Machine

/-! ### The phases around the payload, as runs (R207 to R213) -/

section
variable {s : State}

/-- The preamble, from K = 0 (R207). -/
theorem preamble_run (hph : s.ph = .pre) (hport : s.port = none) (hk : s.work.k = 0#5) :
    Run s (afterPreamble s 18) 18 (List.replicate 18 preambleWord) := by
  have hrun := stepN_of_forall_step (afterPreamble s) fun _ hj => step_afterPreamble hport hj
  rw [afterPreamble_zero hph hk] at hrun
  exact ⟨⟨18, le_rfl, hrun⟩, rfl, rfl, ⟨rfl, rfl, rfl, rfl, rfl⟩⟩

/-- The leading Idles, none of them where the slot is 0 (R208, R209). -/
theorem leadingIdles_run (hph : s.ph = if aoffOf s = 0#4 then .addr else .idlePrefix) (hport : s.port = none)
    (hk : s.work.k = 0#5) : ∃ t, CountedRun s t 14 (List.replicate (aoffOf s).toNat idleWord) ∧ t.ph = .addr := by
  have hstart : afterPrefix s 0 = s := by
    have hzero : (0 = s.req.address.toNat % 8 * 2) ↔ aoffOf s = 0#4 := by
      rw [aoffOf_eq_zero_iff]
      omega
    simp [afterPrefix, hzero, ← hph, ← hk]
  have hrun := stepN_of_forall_step (afterPrefix s) fun _ hj => step_afterPrefix hport hj
  rw [hstart] at hrun
  rw [aoffOf_toNat]
  refine ⟨_, ⟨⟨⟨_, by omega, hrun⟩, rfl, ?_, ⟨rfl, rfl, rfl, rfl, rfl⟩⟩, fun _ => ?_, rfl, rfl⟩, if_pos rfl⟩
  · rw [List.length_replicate]
    rfl
  · rw [List.length_replicate]
    rfl

/-- The address codeword, with the packer initialised behind it (R210). -/
theorem address_run (hph : s.ph = .addr) (hport : s.port = none) :
    CountedRun s (addrStep s) 1 [addressWord s.req.address s.req.fb] :=
  ⟨(SeqStep.addr hph).to_run hport (addrStep_out s), fun _ => rfl, rfl, rfl⟩

/-- A packer that starts with nothing in ACC at the first bit of the message (R183, R210). -/
theorem Packing.start (hph : s.ph = .payload) (hport : s.port = none)
    (hempty : s.work.sp = false ∧ s.work.acc = 0 ∧ s.work.nb = 0) (hfirst : s.work.ci = 0 ∧ s.work.bi = 0) :
    Packing s s.work.wpos.toNat [] (messageBits s) := by
  obtain ⟨hsp, hacc, hnb⟩ := hempty
  obtain ⟨hci, hbi⟩ := hfirst
  refine ⟨hph, hport, hsp, hacc, by rw [hnb]; rfl, rfl, ?_, ?_⟩
  · rw [hbi]
    exact unitBits_pos _
  · rw [hci, hbi]
    rfl

/-- The words of the latched request's payload. -/
def payloadOf (s : State) : List Word := payloadWords s.params (modeOf s) (messageOf s.msg s.req.n)

/-- The payload phase up to its last step (R211). -/
theorem payload_run {slot : Nat} (h : Packing s slot [] (messageBits s)) :
    ∃ t, CountedRun s t (payloadBound (modeOf s) s.req.n - 1) (inject slot (payloadOf s)) ∧
      SeqStep t (leaveStep t) := by
  obtain ⟨t, slot', hrun, ht⟩ := h.run (by decide)
  have hslot := h.slot_le
  refine ⟨t, hrun.mono ?_, .leave ht.ph ht.sp ht.ci_ge ?_⟩
  · rw [List.nil_append, messageBits_length, Nat.mul_comm]
    simp only [payloadBound, groupCount]
    omega
  · have := ht.nb
    simp only [List.length_nil] at this
    bv_omega

/-- The terminator (R212). -/
theorem terminator_run (hph : s.ph = .term) (hport : s.port = none) : CountedRun s (termStep s) 1 [idleWord] :=
  ⟨(SeqStep.term hph).to_run hport (termStep_out s), fun _ => rfl, rfl, rfl⟩

/-- The padding up to CNT = 0 (R202, R213). -/
theorem padding_run {n : Nat} (hph : s.ph = .pad) (hport : s.port = none) (hcnt : s.work.cnt.toNat = (17 - n) % 17)
    (hn : n < 17) : ∃ t, CountedRun s t n (List.replicate n idleWord) ∧ t.ph = .pad ∧ t.work.cnt = 0#5 := by
  induction n generalizing s with
  | zero => exact ⟨s, .refl s, hph, by bv_omega⟩
  | succ n ih =>
    have hne : s.work.cnt ≠ 0#5 := by bv_omega
    have hpad : CountedRun s (padStep s) 1 [idleWord] :=
      ⟨(SeqStep.pad hph hne).to_run hport (padStep_out s), fun _ => rfl, rfl, rfl⟩
    have hcnt' : (padStep s).work.cnt.toNat = (17 - n) % 17 := by
      rw [padStep_work, nextCount_toNat]
      omega
    obtain ⟨t, hrun, ht⟩ := ih (s := padStep s) hph hport hcnt' (by omega)
    exact ⟨t, (hpad.trans hrun).mono (by omega), ht⟩

/-- CNT after counted words (R219). -/
theorem nextCount_iterate_toNat {c : BitVec 5} (hc : c.toNat < 17) (n : Nat) :
    (nextCount^[n] c).toNat = (c.toNat + n) % 17 := by
  induction n with
  | zero => exact (Nat.mod_eq_of_lt hc).symm
  | succ n ih =>
    rw [Function.iterate_succ_apply', nextCount_toNat, ih]
    omega

end

/-! ### A repeat, and the repeats one after another (R203, R204, R213) -/

/-- The words of one repeat of the latched request. -/
def repeatOf (s : State) : List Word :=
  repeatWords s.params s.req.address s.req.fb (modeOf s) (messageOf s.msg s.req.n)

section
variable {s t : State}

theorem SameInputs.modeOf_eq (h : SameInputs s t) : modeOf t = modeOf s := by rw [modeOf, h.req, modeOf]

theorem SameInputs.payloadOf_eq (h : SameInputs s t) : payloadOf t = payloadOf s := by
  rw [payloadOf, payloadOf, h.modeOf_eq, h.params, h.req, h.msg]

theorem SameInputs.repeatOf_eq (h : SameInputs s t) : repeatOf t = repeatOf s := by
  rw [repeatOf, repeatOf, h.modeOf_eq, h.params, h.req, h.msg]

theorem repeatBound_eq (mode : Mode) (n : Nat) : repeatBound mode n = payloadBound mode n + 52 := by
  simp only [repeatBound]
  omega

theorem payloadBound_pos (mode : Mode) (n : Nat) : 0 < payloadBound mode n := Nat.succ_pos _

/-- The payload phase of TX1 and TXR, on to the terminator (R211). -/
theorem composer_payload_run {slot : Nat} (h : Packing s slot [] (messageBits s)) (hop : s.req.op ≠ packOp) :
    ∃ t, CountedRun s t (payloadBound (modeOf s) s.req.n) (inject slot (payloadOf s)) ∧ t.ph = .term := by
  obtain ⟨t, hrun, hleave⟩ := payload_run h
  have hne : t.req.op ≠ packOp := hrun.inputs.req ▸ hop
  have hport : t.port = none := hrun.inputs.port.trans h.port
  have hlast : CountedRun t (leaveStep t) 1 [] := by
    refine ⟨hleave.to_run hport (by simp), fun _ => ?_, ?_, ?_⟩ <;> rw [leaveStep_of_ne_pack hne]
    rfl
  have hpos := payloadBound_pos (modeOf s) s.req.n
  refine ⟨leaveStep t, ?_, by rw [leaveStep_of_ne_pack hne]⟩
  simpa using (hrun.trans hlast).mono (n := payloadBound (modeOf s) s.req.n) (by omega)

/-- Behind the batch-start Sync, the body of a repeat up to the terminator (R198 to R201). -/
theorem repeatBody_run (hph : s.ph = .sync0) (hport : s.port = none) (hop : s.req.op ≠ packOp) :
    ∃ t ws, repeatBody s.params s.req.address s.req.fb (modeOf s) (messageOf s.msg s.req.n) = syncWord :: ws ∧
      CountedRun (sync0Step s) t (payloadBound (modeOf s) s.req.n + 16) ws ∧ t.ph = .pad := by
  have hin := (SeqStep.sync0 hph).sameInputs
  obtain ⟨t, hidles, ht⟩ := leadingIdles_run (s := sync0Step s) rfl hport rfl
  have hlead := hidles.trans (address_run ht (hidles.inputs.port.trans hport))
  have hslot : (addrStep t).work.wpos.toNat = (addressOffset s.req.address).toNat + 1 := by
    have haddr : t.req.address = s.req.address := by rw [hidles.inputs.req, hin.req]
    have hbound : (addressOffset s.req.address).toNat ≤ 14 := by rw [addressOffset_toNat]; omega
    rw [addrStep_work, aoffOf, haddr]
    bv_omega
  have hpack := Packing.start (s := addrStep t) rfl (hlead.inputs.port.trans hport) ⟨rfl, rfl, rfl⟩ ⟨rfl, rfl⟩
  have hall := hin.trans hlead.inputs
  obtain ⟨u, hpayload, hterm⟩ := composer_payload_run hpack (hall.req ▸ hop)
  have hend := terminator_run hterm (hpayload.inputs.port.trans (hlead.inputs.port.trans hport))
  refine ⟨termStep u, _, ?_, (hlead.trans (hpayload.trans hend)).mono ?_, rfl⟩
  · rw [repeatBody, hslot, hall.payloadOf_eq, hidles.inputs.req, hin.req, aoffOf, hin.req, payloadOf]
    simp [List.append_assoc]
  · rw [hall.modeOf_eq, hall.req]
    omega

/-- From the batch-start Sync to the end of the padding: a whole repeat (R197 to R202). -/
theorem repeat_run (hph : s.ph = .sync0) (hport : s.port = none) (hop : s.req.op ≠ packOp) :
    ∃ t, Run s t (repeatBound (modeOf s) s.req.n - 19) (repeatOf s) ∧ SeqStep t (nextRepeatStep t) ∧
      t.work.repi = s.work.repi ∧ t.work.rend = s.work.rend := by
  obtain ⟨t, ws, hbody, hrun, ht⟩ := repeatBody_run hph hport hop
  have hsync := (SeqStep.sync0 hph).to_run hport (sync0Step_out s)
  have hcnt : t.work.cnt.toNat = (1 + ws.length) % 17 := by
    rw [hrun.cnt hop]
    exact nextCount_iterate_toNat (c := 1#5) (by decide) _
  obtain ⟨u, hpad, hu, hzero⟩ := padding_run (n := (17 - (1 + ws.length) % 17) % 17) ht (hrun.inputs.port.trans hport)
    (by omega) (by omega)
  have hwords : repeatOf s =
      [syncWord] ++ (ws ++ List.replicate ((17 - (1 + ws.length) % 17) % 17) idleWord) := by
    rw [repeatOf, repeatWords, hbody, paddingWords, List.length_cons, Nat.add_comm]
    rfl
  rw [hwords, repeatBound_eq]
  exact ⟨u, (hsync.trans (hrun.toRun.trans hpad.toRun)).mono (by omega), .nextRepeat hu hzero,
    hpad.repi.trans hrun.repi, hpad.rend.trans hrun.rend⟩

/-- `s` runs to the end of its operation, in at most `bound` steps which append `ws`. -/
structure Completes (s t : State) (bound : Nat) (ws : List Word) : Prop extends Run s t bound ws where
  ph : t.ph = .done
  done : t.done = true

theorem Run.completes {u : State} {m n : Nat} {vs ws : List Word} (h : Run s t m vs) (h' : Completes t u n ws) :
    Completes s u (m + n) (vs ++ ws) := ⟨h.trans h'.toRun, h'.ph, h'.done⟩

theorem Completes.mono {m n : Nat} {ws : List Word} (h : Completes s t m ws) (hmn : m ≤ n) : Completes s t n ws :=
  ⟨h.toRun.mono hmn, h.ph, h.done⟩

/-- An operation that is over at once. -/
theorem completes_finish (s : State) : Completes (finish s) (finish s) 0 [] := ⟨.refl _, finish_ph s, finish_done s⟩

/-- `m + 1` repeats, the last of them the end of the operation (R213). -/
theorem repeats_complete {m : Nat} (hph : s.ph = .sync0) (hport : s.port = none) (hop : s.req.op ≠ packOp)
    (hrepi : s.work.repi + m + 1 = s.work.rend) :
    ∃ t, Completes s t ((m + 1) * (repeatBound (modeOf s) s.req.n - 18))
      (List.replicate (m + 1) (repeatOf s)).flatten := by
  induction m generalizing s with
  | zero =>
    obtain ⟨t, hrun, hnext, hi, hd⟩ := repeat_run hph hport hop
    have hlast : t.work.repi + 1 = t.work.rend := by omega
    have hstep := hnext.to_run (ws := []) (hrun.inputs.port.trans hport) (by simp)
    have hend : Completes t (nextRepeatStep t) 1 [] := by
      refine ⟨hstep, ?_, ?_⟩ <;> rw [nextRepeatStep_of_last hlast] <;> rfl
    have hbound := repeatBound_eq (modeOf s) s.req.n
    exact ⟨_, (hrun.completes hend).mono (by omega)⟩
  | succ m ih =>
    obtain ⟨t, hrun, hnext, hi, hd⟩ := repeat_run hph hport hop
    have hmore : t.work.repi + 1 ≠ t.work.rend := by omega
    have hstep := hnext.to_run (ws := []) (hrun.inputs.port.trans hport) (by simp)
    have hboth := hrun.trans hstep
    have hin := hboth.inputs
    obtain ⟨u, hrest⟩ := ih (s := nextRepeatStep t) (by rw [nextRepeatStep_of_more hmore]) (hin.port.trans hport)
      (hin.req ▸ hop) (by rw [nextRepeatStep_of_more hmore]; show t.work.repi + 1 + m + 1 = t.work.rend; omega)
    rw [hin.modeOf_eq, hin.req, hin.repeatOf_eq] at hrest
    have hall := hboth.completes hrest
    rw [List.append_nil] at hall
    have hbound := repeatBound_eq (modeOf s) s.req.n
    refine ⟨u, hall.mono ?_⟩
    rw [Nat.succ_mul (m + 1)]
    omega

/-- The preamble, and then the repeats (R206, R207). -/
theorem first_repeats_complete {m : Nat} (hph : s.ph = .pre) (hport : s.port = none) (hop : s.req.op ≠ packOp)
    (hk : s.work.k = 0#5) (hrepi : s.work.repi + m + 1 = s.work.rend) :
    ∃ t, Completes s t (18 + (m + 1) * (repeatBound (modeOf s) s.req.n - 18))
      (List.replicate 18 preambleWord ++ (List.replicate (m + 1) (repeatOf s)).flatten) := by
  obtain ⟨t, ht⟩ := repeats_complete (s := afterPreamble s 18) rfl hport hop hrepi
  exact ⟨t, (preamble_run hph hport hk).completes ht⟩

/-- The sequencer's run from its start to the end of the operation (R206 to R213). -/
theorem startRepeats_completes {repi rend m : Nat} (hport : s.port = none) (hop : s.req.op ≠ packOp)
    (hrend : repi + m + 1 = rend) :
    ∃ t, Completes (startRepeats repi rend s) t ((m + 1) * repeatBound (modeOf s) s.req.n)
      (preambleWords repi ++ (List.replicate (m + 1) (repeatOf s)).flatten) := by
  have hbound : 18 + (m + 1) * (repeatBound (modeOf s) s.req.n - 18) ≤ (m + 1) * repeatBound (modeOf s) s.req.n := by
    obtain ⟨c, hc⟩ : ∃ c, repeatBound (modeOf s) s.req.n = c + 18 :=
      ⟨_, (repeatBound_eq _ _).trans (Nat.add_assoc _ 34 18).symm⟩
    rw [hc, Nat.add_sub_cancel, Nat.mul_add]
    omega
  obtain rfl | hpos := Nat.eq_zero_or_pos repi
  · rw [startRepeats_zero (by omega)]
    obtain ⟨t, ht⟩ := first_repeats_complete
      (s := { s with work := { s.work with repi := 0, rend := rend, k := 0 }, ph := .pre }) rfl hport hop rfl hrend
    exact ⟨t, ht.mono hbound⟩
  · rw [startRepeats_succ hpos (by omega), preambleWords, if_neg hpos.ne', List.nil_append]
    obtain ⟨t, ht⟩ := repeats_complete
      (s := { s with work := { s.work with repi := repi, rend := rend }, ph := .sync0 }) rfl hport hop hrend
    exact ⟨t, ht.mono (le_trans (Nat.le_add_left _ 18) hbound)⟩

/-- The run of PACK from its start to its end (R183, R211). -/
theorem pack_completes (h : Packing s s.work.wpos.toNat [] (messageBits s)) (hop : s.req.op = packOp) :
    ∃ t, Completes s t (payloadBound (modeOf s) s.req.n) (inject s.work.wpos.toNat (payloadOf s)) := by
  obtain ⟨t, hrun, hleave⟩ := payload_run h
  have hpack : t.req.op = packOp := hrun.inputs.req ▸ hop
  have hstep := hleave.to_run (ws := []) (hrun.inputs.port.trans h.port) (by simp)
  have hend : Completes t (leaveStep t) 1 [] := by
    refine ⟨hstep, ?_, ?_⟩ <;> rw [leaveStep_of_pack hpack] <;> rfl
  have hpos := payloadBound_pos (modeOf s) s.req.n
  refine ⟨leaveStep t, ?_⟩
  simpa using (hrun.toRun.completes hend).mono (n := payloadBound (modeOf s) s.req.n) (by omega)

/-! ### The requests PACK, TX1 and TXR, performed (R183, R203, R204, R215, R216) -/

/-- What an accepted stream request finds at its start: OUT empty, no refusal, and the host's inputs (R52, R262). -/
structure Opened (s u : State) : Prop where
  out : u.out = []
  outp : u.outp = 0
  err : u.err = 0#2
  msg : u.msg = s.msg
  params : u.params = s.params
  port : u.port = s.port

theorem opened_openStream (r : Request) (s : State) : Opened s (openStream r (accept s)) :=
  ⟨rfl, rfl, rfl, rfl, rfl, rfl⟩

theorem Opened.startRepeats {u : State} (h : Opened s u) (repi rend : Nat) : Opened s (startRepeats repi rend u) := by
  unfold Machine.startRepeats
  split_ifs <;> exact ⟨h.out, h.outp, h.err, h.msg, h.params, h.port⟩

/-- The request `i`, made in `s`, runs to DONE within `bound` steps and ends in `t`, with the words `ws` in OUT. -/
structure Performs (i : Instr) (s t : State) (bound : Nat) (ws : List Word) : Prop where
  runs : runsWithin i s bound t
  out : t.out = ws
  outp : t.outp = t.out.length
  done : t.done = true
  err : t.err = 0#2
  msg : t.msg = s.msg
  params : t.params = s.params
  port : t.port = s.port

/-- A request performs what its start completes. -/
theorem Completes.performs {i : Instr} {u : State} {bound : Nat} {ws : List Word} (h : Completes u t bound ws)
    (hexec : exec i s = .next u) (hu : Opened s u) : Performs i s t bound ws := by
  obtain ⟨k, hk, hrun⟩ := h.run
  have hout : t.out = ws := by rw [h.out, hu.out, List.nil_append]
  exact ⟨⟨u, k, hexec, hk, hrun, h.ph⟩, hout, by rw [h.outp, hu.outp, hout, Nat.zero_add], h.done,
    h.inputs.err.trans hu.err, h.inputs.msg.trans hu.msg, h.inputs.params.trans hu.params,
    h.inputs.port.trans hu.port⟩

section
variable {n : Nat} (hidle : s.ph.idle = true) (hport : s.port = none) (hn : tooLong s.params n = false)
include hidle hport hn

theorem pack_performs (mode : Mode) (start : BitVec 4) : ∃ t, Performs (.pack mode start n) s t
    (payloadBound mode n) (packWords s.params mode start (messageOf s.msg n)) := by
  obtain ⟨t, ht⟩ := pack_completes (s := startPack start (openStream (packRecord s.req mode start n) (accept s)))
    (.start rfl hport ⟨rfl, rfl, rfl⟩ ⟨rfl, rfl⟩) rfl
  have hmode : modeOf (startPack start (openStream (packRecord s.req mode start n) (accept s))) = mode :=
    modeOfBit_modeBit mode
  rw [payloadOf, hmode] at ht
  exact ⟨t, ht.performs (exec_pack_of_idle hidle hn) ⟨rfl, rfl, rfl, rfl, rfl, rfl⟩⟩

theorem tx1_performs (rep : Nat) (a : BitVec 21) (fb : BitVec 2) (mode : Mode) :
    ∃ t, Performs (.tx1 rep a fb mode n) s t (repeatBound mode n)
      (tx1Words s.params rep a fb mode (messageOf s.msg n)) := by
  obtain ⟨t, ht⟩ := startRepeats_completes (s := openStream (tx1Record s.req rep a fb mode n) (accept s))
    (repi := rep) (m := 0) hport (by simp [tx1Record, packOp]) rfl
  have hmode : modeOf (openStream (tx1Record s.req rep a fb mode n) (accept s)) = mode := modeOfBit_modeBit mode
  rw [repeatOf, hmode, Nat.zero_add, Nat.one_mul, List.replicate_one, List.flatten_singleton] at ht
  rw [tx1Words_eq]
  exact ⟨t, ht.performs (exec_tx1_of_idle hidle hn) ((opened_openStream _ s).startRepeats _ _)⟩

theorem txr_performs (rep : Nat) (a : BitVec 21) (fb : BitVec 2) (mode : Mode) :
    ∃ t, Performs (.txr rep a fb mode n) s t (rep * repeatBound mode n)
      (txrWords s.params rep a fb mode (messageOf s.msg n)) := by
  have hopened := (opened_openStream (txrRecord s.req rep a fb mode n) s).startRepeats 0 rep
  have hexec := exec_txr_of_idle (rep := rep) (a := a) (fb := fb) (mode := mode) hidle hn
  cases rep with
  | zero =>
    rw [startRepeats_self] at hexec hopened
    rw [Nat.zero_mul]
    exact ⟨_, (completes_finish _).performs hexec hopened⟩
  | succ m =>
    obtain ⟨t, ht⟩ := startRepeats_completes (s := openStream (txrRecord s.req (m + 1) a fb mode n) (accept s))
      (repi := 0) (rend := m + 1) (m := m) hport (by simp [txrRecord, packOp]) (by omega)
    have hmode : modeOf (openStream (txrRecord s.req (m + 1) a fb mode n) (accept s)) = mode := modeOfBit_modeBit mode
    rw [repeatOf, hmode] at ht
    rw [txrWords_succ]
    exact ⟨t, ht.performs hexec hopened⟩

end

end

/-- Settles O48 (R183, R215): PACK's run appends what the injector makes of the payload's words. -/
theorem packAppendsItsSequence : Obligations.PackAppendsItsSequence := by
  intro s mode start n hidle hport hn
  obtain ⟨t, h⟩ := pack_performs hidle hport hn mode start
  exact ⟨t, ⟨_, h.runs⟩, h.out, h.outp, h.done, h.err, h.msg, h.params⟩

/-- Settles O49 (R203, R215): TX1's run is the preamble, where it has one, and one repeat. -/
theorem tx1AppendsItsSequence : Obligations.Tx1AppendsItsSequence := by
  intro s repidx a fb mode n hidle hport hn
  obtain ⟨t, h⟩ := tx1_performs hidle hport hn repidx a fb mode
  exact ⟨t, ⟨_, h.runs⟩, h.out, h.outp, h.done, h.err, h.msg, h.params⟩

/-- Settles O50 (R204, R215): TXR's run is the preamble and the repeats, by induction on their number. -/
theorem txrAppendsItsSequence : Obligations.TxrAppendsItsSequence := by
  intro s repcnt a fb mode n hidle hport hn
  obtain ⟨t, h⟩ := txr_performs hidle hport hn repcnt a fb mode
  exact ⟨t, ⟨_, h.runs⟩, h.out, h.outp, h.done, h.err, h.msg, h.params⟩

/-- Settles O51 (R216): the runs of the three operations, with the steps of each phase counted. -/
theorem streamOperationsEnd : Obligations.StreamOperationsEnd := by
  intro s rep a fb mode start n hidle hport hn
  obtain ⟨t, ht⟩ := pack_performs hidle hport hn mode start
  obtain ⟨u, hu⟩ := tx1_performs hidle hport hn rep a fb mode
  obtain ⟨v, hv⟩ := txr_performs hidle hport hn rep a fb mode
  exact ⟨⟨t, ht.runs⟩, ⟨u, hu.runs⟩, ⟨v, hv.runs⟩⟩

/-! ### The end of a run is determined, and so is the result of a request (R20, R218) -/

section
variable {s t t' u : State}

/-- A step with no request presented is a step of the sequencer. -/
theorem seqStep_of_step (hport : s.port = none) (h : step s = .next t) : SeqStep s t := by
  cases hrun : s.ph.idle with
  | true => simp [step_idle hrun, hport] at h
  | false => exact ((step_eq_next_iff hrun).mp h).2

/-- No request comes to the port while the block steps. -/
theorem port_of_stepN {k : Nat} (hport : s.port = none) (h : stepN k s = .next t) : t.port = none := by
  induction k generalizing s with
  | zero =>
    cases h
    exact hport
  | succ k ih =>
    rw [stepN] at h
    cases hstep : step s with
    | next v =>
      simp only [hstep] at h
      exact ih ((seqStep_of_step hport hstep).sameInputs.port.trans hport) h
    | fault | refused => simp [hstep] at h

/-- In DONE the block waits for a request: no run goes on from there. -/
theorem stepN_of_done {k : Nat} (hph : s.ph = .done) (hport : s.port = none) (h : stepN k s = .next t) : s = t := by
  cases k with
  | zero =>
    cases h
    rfl
  | succ k => simp [stepN, step_idle (show s.ph.idle = true by rw [hph]; rfl), hport] at h

/-- A run to DONE is not longer than another one, so there is one end. -/
theorem done_unique_of_le {k k' : Nat} (hport : s.port = none) (h : stepN k s = .next t) (hph : t.ph = .done)
    (h' : stepN k' s = .next t') (hle : k ≤ k') : t = t' := by
  obtain ⟨d, rfl⟩ := Nat.exists_eq_add_of_le hle
  rw [stepN_add h] at h'
  exact stepN_of_done hph (port_of_stepN hport h) h'

/-- Two runs of a request to DONE end in the same state. -/
theorem runsTo_unique {i : Instr} (hi : isRequest i = true) (hport : s.port = none) (h : runsTo i s t)
    (h' : runsTo i s t') : t = t' := by
  obtain ⟨-, u, k, hu, -, hrun, hph⟩ := h
  obtain ⟨-, u', k', hu', -, hrun', hph'⟩ := h'
  obtain rfl : u = u' := by simpa [hu] using hu'
  have hport' : u.port = none := (exec_request_port hi hu).trans hport
  obtain hle | hle := le_total k k'
  · exact done_unique_of_le hport' hrun hph hrun' hle
  · exact (done_unique_of_le hport' hrun' hph' hrun hle).symm

/-- A request that is over in the accepting step ends there. -/
theorem eq_of_runsTo_of_done {i : Instr} (hi : isRequest i = true) (hport : s.port = none) (hexec : exec i s = .next u)
    (hph : u.ph = .done) (h : runsTo i s t) : t = u :=
  runsTo_unique hi hport h ⟨0, u, 0, hexec, le_rfl, rfl, hph⟩

theorem exists_exec_of_runsTo {i : Instr} (h : runsTo i s t) : ∃ u, exec i s = .next u := by
  obtain ⟨-, u, -, hexec, -⟩ := h
  exact ⟨u, hexec⟩

end

/-- What a request leaves to be seen: ERR, OUTP, and where ERR is 0 the words of a stream operation or else RES. -/
structure Answer where
  err : BitVec 2
  outp : Nat
  res : Nat := 0
  out : List Word := []

/-- `t` shows this answer of the request `i`. -/
def Answer.shownBy (a : Answer) (i : Instr) (t : State) : Prop :=
  t.err = a.err ∧ t.outp = a.outp ∧ (t.err = 0#2 → if (messageRead i).isSome then t.out = a.out else t.res = a.res)

/-- A refusal shows its cause and no words (R242). -/
theorem Answer.shownBy_takeRefusal (c : Cause) (i : Instr) (s : State) :
    (Answer.mk (causeCode c) 0 0 []).shownBy i (takeRefusal c s) :=
  ⟨rfl, rfl, fun h => by cases c <;> simp [causeCode] at h⟩

/-- A scalar operation shows its result (R262). -/
theorem Answer.shownBy_scalarDone {i : Instr} (hi : messageRead i = none) (v : Nat) (s : State) :
    (Answer.mk 0 0 v []).shownBy i (scalarDone v (accept s)) :=
  ⟨rfl, rfl, fun _ => by simp [hi]⟩

/-- A performed stream operation shows its words. -/
theorem Performs.shownBy {i : Instr} {n bound : Nat} {s t : State} {ws : List Word} (h : Performs i s t bound ws)
    (hi : messageRead i = some n) : (Answer.mk 0 ws.length 0 ws).shownBy i t :=
  ⟨h.err, h.outp.trans (congrArg _ h.out), fun _ => by simpa [hi] using h.out⟩

/-- The words of a stream operation are a function of the parameters and the message. -/
theorem stream_performs {i : Instr} {n : Nat} (hi : messageRead i = some n) :
    ∃ words : Config.Params → List Byte → List Word, ∀ s, s.ph.idle = true → s.port = none →
      tooLong s.params n = false → ∃ t bound, Performs i s t bound (words s.params (messageOf s.msg n)) := by
  cases i <;> simp only [messageRead, reduceCtorEq, Option.some.injEq] at hi <;> subst hi
  case pack mode start _ =>
    refine ⟨fun p => packWords p mode start, fun s hidle hport hn => ?_⟩
    obtain ⟨t, ht⟩ := pack_performs hidle hport hn mode start
    exact ⟨t, _, ht⟩
  case tx1 rep a fb mode _ =>
    refine ⟨fun p => tx1Words p rep a fb mode, fun s hidle hport hn => ?_⟩
    obtain ⟨t, ht⟩ := tx1_performs hidle hport hn rep a fb mode
    exact ⟨t, _, ht⟩
  case txr rep a fb mode _ =>
    refine ⟨fun p => txrWords p rep a fb mode, fun s hidle hport hn => ?_⟩
    obtain ⟨t, ht⟩ := txr_performs hidle hport hn rep a fb mode
    exact ⟨t, _, ht⟩

/-- What a request shows is a function of the parameters and of the message it reads. -/
theorem exists_answer {i : Instr} (hi : isRequest i = true) : ∃ answer : Config.Params → List Byte → Answer,
    ∀ s t, s.port = none → runsTo i s t →
      (answer s.params (messageOf s.msg ((messageRead i).getD 0))).shownBy i t := by
  obtain ⟨hread, v, hexec⟩ | hexec | ⟨hread, n, v, hexec⟩ | ⟨n, k, hread, hexec, -⟩ := exec_request_cases hi
  · refine ⟨fun p _ => .mk 0 0 (v p) [], fun s t hport h => ?_⟩
    obtain ⟨u, hu⟩ := exists_exec_of_runsTo h
    obtain ⟨-, rfl⟩ := scalar_next.mp ((hexec s).symm.trans hu)
    rw [eq_of_runsTo_of_done hi hport hu rfl h]
    exact Answer.shownBy_scalarDone hread _ s
  · refine ⟨fun _ _ => .mk (causeCode .reservedOp) 0 0 [], fun s t hport h => ?_⟩
    obtain ⟨u, hu⟩ := exists_exec_of_runsTo h
    obtain ⟨-, rfl⟩ := refuseSelector_next.mp ((hexec s).symm.trans hu)
    rw [eq_of_runsTo_of_done hi hport hu rfl h]
    exact Answer.shownBy_takeRefusal ..
  · refine ⟨fun p _ => if tooLong p n then .mk (causeCode .msgTooLong) 0 0 [] else .mk 0 0 v [],
      fun s t hport h => ?_⟩
    obtain ⟨u, hu⟩ := exists_exec_of_runsTo h
    obtain ⟨-, ⟨hn, rfl⟩ | ⟨hn, hnext⟩⟩ := withLength_next.mp ((hexec s).symm.trans hu)
    · rw [eq_of_runsTo_of_done hi hport hu rfl h]
      simp only [hn, if_true]
      exact Answer.shownBy_takeRefusal ..
    · cases hnext
      rw [eq_of_runsTo_of_done hi hport hu rfl h]
      simp only [hn, Bool.false_eq_true, if_false]
      exact Answer.shownBy_scalarDone hread v s
  · obtain ⟨words, hwords⟩ := stream_performs hread
    refine ⟨fun p m => if tooLong p n then .mk (causeCode .msgTooLong) 0 0 [] else .mk 0 (words p m).length 0 (words p m),
      fun s t hport h => ?_⟩
    obtain ⟨u, hu⟩ := exists_exec_of_runsTo h
    rw [hread, Option.getD_some]
    obtain ⟨hidle, ⟨hn, rfl⟩ | ⟨hn, -⟩⟩ := withLength_next.mp ((hexec s).symm.trans hu)
    · rw [eq_of_runsTo_of_done hi hport hu rfl h]
      simp only [hn, if_true]
      exact Answer.shownBy_takeRefusal ..
    · obtain ⟨t', bound, ht'⟩ := hwords s hidle hport hn
      obtain rfl : t = t' := runsTo_unique hi hport h ⟨bound, ht'.runs⟩
      simp only [hn, Bool.false_eq_true, if_false]
      exact ht'.shownBy hread

/-- Two messages that read alike below `n` are the same message. -/
theorem messageOf_congr {m m' : Memory} {n : Nat} (h : ∀ j < n, Memory.read m j = Memory.read m' j) :
    messageOf m n = messageOf m' n :=
  List.map_congr_left fun j hj => h j (List.mem_range.mp hj)

/-- Settles O59 (R20, R218): ERR, OUTP and the result are a function of the parameters and the message. -/
theorem noStateCarriesOver : Obligations.NoStateCarriesOver := by
  intro i s₁ s₂ t₁ t₂ hport₁ hport₂ hparams hmsg hi h₁ h₂
  obtain ⟨answer, hanswer⟩ := exists_answer hi
  have hsame : messageOf s₁.msg ((messageRead i).getD 0) = messageOf s₂.msg ((messageRead i).getD 0) := by
    cases hread : messageRead i with
    | none => rfl
    | some n => exact messageOf_congr (hmsg n hread)
  have hshown := hanswer s₂ t₂ hport₂ h₂
  rw [← hparams, ← hsame] at hshown
  obtain ⟨herr₁, houtp₁, hres₁⟩ := hanswer s₁ t₁ hport₁ h₁
  obtain ⟨herr₂, houtp₂, hres₂⟩ := hshown
  have herr : t₁.err = t₂.err := herr₁.trans herr₂.symm
  refine ⟨herr, houtp₁.trans houtp₂.symm, fun hzero => ?_⟩
  have hresult₁ := hres₁ hzero
  have hresult₂ := hres₂ (herr ▸ hzero)
  split_ifs at hresult₁ hresult₂ ⊢
  · exact hresult₁.trans hresult₂.symm
  · exact hresult₁.trans hresult₂.symm

end Sys2Proof.Machine
end
